-- ==== Sys2Proof/Word.lean ====
section
/-! DEFINITION. The words of the unit (spec/00_scope.md R7, R9, R10): a word of width N is a bit vector of N bits,
bit 0 least significant; `uint v` is `v.toNat` and `sint v` is `v.toInt`. -/

namespace Sys2Proof

/-- A 48-bit word: a fixed-point value, a node identifier, an operand field or a response (R7 `W`, `IDW`; R22, R23, R50, R51). -/
abbrev Word := BitVec 48

/-- A 16-bit table word, 5 integer and 11 fractional bits (R7 `TW`, `TIW`, `TFW`; R25). -/
abbrev TableWord := BitVec 16

/-- A whole request as one 152-bit word, `op ++ a ++ b ++ c` (R50). -/
abbrev RequestWord := BitVec 152

end Sys2Proof
end

