-- ==== Sys2Proof/Syntax.lean ====
section
/-! DEFINITION. The operations of the unit as syntax (spec/30_encoding.md R50, R52, R58, R61): the request's four
fields, the fifteen operations, and one constructor of `Instr` per row of spec/opcode_table.json, carrying exactly
the operand fields its operation reads (R52 column "reads", R53). -/

namespace Sys2Proof

/-- A request, format REQ: an operation selector and three 48-bit operand fields (R50). Nothing says here that `op`
is assigned. -/
structure Request where
  op : BitVec 8
  a : Word
  b : Word
  c : Word
  deriving DecidableEq, Repr, Inhabited

/-- The fifteen operations of R52, by name. -/
inductive Op where
  | fxAdd | fxSub | fxMul
  | tanh | sigmoid
  | idMake | idTile | idPart | idLocal
  | idEq | idNe | idLt | idGt | idLe | idGe
  deriving DecidableEq, Repr

/-- An operation with the operands it reads (R52). An unread field has no place here: any value in it gives the same
instruction (R53; DEDUCED, log 10). -/
inductive Instr where
  /-- FX_ADD, R70. -/
  | fxAdd (a b : Word)
  /-- FX_SUB, R71. -/
  | fxSub (a b : Word)
  /-- FX_MUL, R72. -/
  | fxMul (a b : Word)
  /-- TANH, R85. -/
  | tanh (a : Word)
  /-- SIGMOID, R86. -/
  | sigmoid (a : Word)
  /-- ID_MAKE, R100. -/
  | idMake (a b c : Word)
  /-- ID_TILE, R101. -/
  | idTile (a : Word)
  /-- ID_PART, R102. -/
  | idPart (a : Word)
  /-- ID_LOCAL, R103. -/
  | idLocal (a : Word)
  /-- ID_EQ, R105. -/
  | idEq (a b : Word)
  /-- ID_NE, R106. -/
  | idNe (a b : Word)
  /-- ID_LT, R107. -/
  | idLt (a b : Word)
  /-- ID_GT, R108. -/
  | idGt (a b : Word)
  /-- ID_LE, R109. -/
  | idLe (a b : Word)
  /-- ID_GE, R110. -/
  | idGe (a b : Word)
  deriving DecidableEq, Repr

/-- The pseudo-instruction FX_NEG a, which expands to FX_SUB 0, a (R61). -/
def Instr.fxNeg (a : Word) : Instr := .fxSub 0 a

/-- The pseudo-instruction FX_MOV a, which expands to FX_ADD a, 0 (R61). -/
def Instr.fxMov (a : Word) : Instr := .fxAdd a 0

/-- One move of one of the two agents (R20, R138). -/
inductive Turn where
  /-- The host issues a request (R138 "host issue", R143). -/
  | issue (q : Request)
  /-- The reset event (R135, R138 "reset"). -/
  | reset
  /-- The unit's turn (R138 "unit respond"). -/
  | unit
  deriving DecidableEq, Repr

/-- A connection record: an ordered pair of node identifiers (R58). A data format only: no operation reads or builds it (R6). -/
structure Connection where
  src : Word
  dst : Word
  deriving DecidableEq, Repr

/-- A pending-update record: one destination identifier (R58). A data format only (R6). -/
structure PendingUpdate where
  dst : Word
  deriving DecidableEq, Repr

/-- An operand of a line: a hex word, a literal `fx(n/d)`, or the name of an earlier response (R60). -/
inductive Operand where
  | hex (w : Word)
  | fxLit (n : Int) (d : Nat)
  | name (x : String)
  deriving DecidableEq, Repr

/-- What stands first on a line: an operation's mnemonic or one of the two pseudo-instructions (R60, R61). -/
inductive Mnemonic where
  | op (o : Op)
  | fxNeg
  | fxMov
  deriving DecidableEq, Repr

/-- A line `x = MNEMONIC a, b, c`, its characters aside (R60; log 13). -/
structure Line where
  bind : Option String
  mnemonic : Mnemonic
  args : List Operand
  deriving DecidableEq, Repr

end Sys2Proof
end

