-- ==== Sys2Proof/WellFormed.lean ====
section
/-! DEFINITION. What a host may issue (spec/30_encoding.md R54, R55; spec/70_reset_and_hazards.md R143). The one check is
that the op is assigned: no operand value is ever illegal (R55), so every term of `Instr` is well-formed and there is
nothing to check on it. The reserved values are written here as R54 lists them, apart from the decoder's table, so that a
statement can compare the two. -/

namespace Sys2Proof

/-- The reserved op values: 0x00, 0x04 .. 0x0F, 0x12 .. 0x1F, 0x24 .. 0x2F and 0x36 .. 0xFF (R54). -/
def reservedOp (op : BitVec 8) : Bool :=
  op.toNat = 0x00 || (0x04 ≤ op.toNat && op.toNat ≤ 0x0F) || (0x12 ≤ op.toNat && op.toNat ≤ 0x1F)
    || (0x24 ≤ op.toNat && op.toNat ≤ 0x2F) || (0x36 ≤ op.toNat && op.toNat ≤ 0xFF)

/-- A request the host may issue: its op is assigned (R54), its operands anything (R55). -/
def Request.wellFormed (q : Request) : Bool := !reservedOp q.op

/-- A turn that keeps the host's duty "use an assigned op only" (R143). -/
def Turn.wellFormed : Turn → Bool
  | .issue q => q.wellFormed
  | .reset => true
  | .unit => true

/-- A schedule in which the host keeps its duty throughout (R143). -/
def scheduleWellFormed (ts : List Turn) : Bool := ts.all Turn.wellFormed

end Sys2Proof
end

