-- ==== Sys2Proof/Decode.lean ====
section
/-! DEFINITION. The request encoding (spec/30_encoding.md R50 to R61): fields of the 152-bit word, the op table, the decoder,
total on every word and rejecting reserved ops by name, and the encoder. -/

namespace Sys2Proof

/-- Why a request is not decoded. -/
inductive DecodeError where
  /-- The op is one of the 241 reserved values (R54). -/
  | reservedOp (op : BitVec 8)
  deriving DecidableEq, Repr

/-- The request carried by a 152-bit word: op in bits 151:144, a in 143:96, b in 95:48, c in 47:0 (R50). -/
def Request.ofWord (w : RequestWord) : Request where
  op := w.extractLsb' 144 8
  a := w.extractLsb' 96 48
  b := w.extractLsb' 48 48
  c := w.extractLsb' 0 48

/-- The canonical spelling `op ++ a ++ b ++ c` of a request (R50). -/
def Request.toWord (q : Request) : RequestWord := q.op ++ q.a ++ q.b ++ q.c

/-- The op value of each operation (R52; the values are the spec's own, D3). -/
def Op.code : Op → BitVec 8
  | .fxAdd => 0x01
  | .fxSub => 0x02
  | .fxMul => 0x03
  | .tanh => 0x10
  | .sigmoid => 0x11
  | .idMake => 0x20
  | .idTile => 0x21
  | .idPart => 0x22
  | .idLocal => 0x23
  | .idEq => 0x30
  | .idNe => 0x31
  | .idLt => 0x32
  | .idGt => 0x33
  | .idLe => 0x34
  | .idGe => 0x35

/-- The rows of R52, in its order. -/
def Op.all : List Op :=
  [.fxAdd, .fxSub, .fxMul, .tanh, .sigmoid, .idMake, .idTile, .idPart, .idLocal,
   .idEq, .idNe, .idLt, .idGt, .idLe, .idGe]

/-- The operation an op value selects; all eight bits are compared (R52, mask 0xFF). -/
def Op.ofCode (c : BitVec 8) : Option Op := Op.all.find? (fun o => o.code == c)

/-- The operation with its operands taken whole from the fields it reads (R52, R56). -/
def Op.withFields (o : Op) (a b c : Word) : Instr :=
  match o with
  | .fxAdd => .fxAdd a b
  | .fxSub => .fxSub a b
  | .fxMul => .fxMul a b
  | .tanh => .tanh a
  | .sigmoid => .sigmoid a
  | .idMake => .idMake a b c
  | .idTile => .idTile a
  | .idPart => .idPart a
  | .idLocal => .idLocal a
  | .idEq => .idEq a b
  | .idNe => .idNe a b
  | .idLt => .idLt a b
  | .idGt => .idGt a b
  | .idLe => .idLe a b
  | .idGe => .idGe a b

/-- Whether an operation reads field b (R52 column "reads"); every operation reads a. -/
def Op.readsB : Op → Bool
  | .fxAdd | .fxSub | .fxMul => true
  | .tanh | .sigmoid => false
  | .idMake => true
  | .idTile | .idPart | .idLocal => false
  | .idEq | .idNe | .idLt | .idGt | .idLe | .idGe => true

/-- Whether an operation reads field c (R52 column "reads"): ID_MAKE alone. -/
def Op.readsC (o : Op) : Bool := o == .idMake

/-- The decoder over the request's fields: total, a reserved op rejected by name (R52, R54). -/
def decode (q : Request) : Except DecodeError Instr :=
  match Op.ofCode q.op with
  | some o => .ok (o.withFields q.a q.b q.c)
  | none => .error (.reservedOp q.op)

/-- The decoder over the 152-bit word. -/
def decodeWord (w : RequestWord) : Except DecodeError Instr := decode (Request.ofWord w)

/-- A request with one operand: the unread fields are zero (R60). -/
def request1 (o : Op) (a : Word) : Request := ⟨o.code, a, 0, 0⟩

/-- A request with two operands: the unread field is zero (R60). -/
def request2 (o : Op) (a b : Word) : Request := ⟨o.code, a, b, 0⟩

/-- The encoder: the request R60 gives the line of an instruction, unread fields zero. -/
def encode (i : Instr) : Request :=
  match i with
  | .fxAdd a b => request2 .fxAdd a b
  | .fxSub a b => request2 .fxSub a b
  | .fxMul a b => request2 .fxMul a b
  | .tanh a => request1 .tanh a
  | .sigmoid a => request1 .sigmoid a
  | .idMake a b c => ⟨Op.code .idMake, a, b, c⟩
  | .idTile a => request1 .idTile a
  | .idPart a => request1 .idPart a
  | .idLocal a => request1 .idLocal a
  | .idEq a b => request2 .idEq a b
  | .idNe a b => request2 .idNe a b
  | .idLt a b => request2 .idLt a b
  | .idGt a b => request2 .idGt a b
  | .idLe a b => request2 .idLe a b
  | .idGe a b => request2 .idGe a b

/-- The encoder onto the 152-bit word. -/
def encodeWord (i : Instr) : RequestWord := (encode i).toWord

/-- A fixed-point literal `fx(n/d)` of R60: the word `trunc_48(floor(n/d * 2^16))`, for a positive denominator d.
The real number is given as a fraction (DESIGN CHOICE, log 13). -/
def fx (n : Int) (d : Nat) : Word := BitVec.ofInt 48 (n * 2 ^ 16 / (d : Int))

/-- The request whose bits are w, numbered as spec/opcode_table.json numbers them (bit 151 most significant, R50); the
bits from nbits up are zero. -/
def tableRequest (nbits w : Nat) : Request := Request.ofWord (BitVec.ofNat 152 (w % 2 ^ nbits))

/-- The instruction the decoder reads from a request whose bits are w. -/
def decodeTableWord (nbits w : Nat) : Option Instr := (decode (tableRequest nbits w)).toOption

end Sys2Proof
end

