-- ==== Sys2Proof/Config.lean ====
section
/-! DEFINITION. What an implementation fixes and the spec leaves open: the OPEN parameters and the free values, each an
opaque constant that no proof can see into (spec/00_scope.md R8; spec/93_implementation_defined.md). The parameters the
spec gives a default for stand in Sys2Proof/Machine/Params.lean. -/

namespace Sys2Proof

/-- One entry of a segment table: a coefficient and an intercept, each in the 5.11 format (R25). -/
structure LutEntry where
  coef : TableWord
  icpt : TableWord
  deriving DecidableEq, Repr, Inhabited

/-- TANH_LUT by 5-bit address: an OPEN parameter, its contents are in no source (R26, D11). UNVERIFIED, log 6. -/
opaque Config.tanhLut : Fin 32 → LutEntry

/-- SIG_LUT by 5-bit address: an OPEN parameter (R26, D11). UNVERIFIED, log 6. -/
opaque Config.sigLut : Fin 32 → LutEntry

/-- What the response port shows after the n-th reset and before the next response: any value (R32, R143;
93_implementation_defined.md "any value"). A free value; DESIGN CHOICE, log 3. -/
opaque Config.portAfterReset : Nat → Word

/-- LATENCY(op): an OPEN natural number of cycles per op; no rule depends on it and nothing of the model reads it
(R8, R142, D6). Log 12. -/
opaque Config.latency : BitVec 8 → Nat

end Sys2Proof
end

