-- ==== Sys2Proof/Machine/Params.lean ====
section
/-! DEFINITION. The parameters of the design with the values the spec takes for them (spec/00_scope.md R8), and the build-time
contents of the read-only tables. -/

namespace Sys2Proof.Machine

/-- A segment table: 32 entries by physical address, entry k at address `trunc_5(k)` (R25, D11). -/
abbrev Table := Vector LutEntry 32

/-- TANH_SEL_LO: the low end of tanh's window x[16:13] (R8, R81, D7). A constant of the design, apart from
`sigSelLo` (R91). UNVERIFIED, log 8. -/
def tanhSelLo : Nat := 13

/-- SIG_SEL_LO: the low end of sigmoid's window x[17:14] (R8, R81, D8). UNVERIFIED, log 8. -/
def sigSelLo : Nat := 14

/-- TANH_SAT_POS, default word (R27, D10). UNVERIFIED, log 7. -/
def tanhSatPosDefault : Word := 0x00000000F6CA

/-- TANH_SAT_NEG, default word (R27, D10). UNVERIFIED, log 7. -/
def tanhSatNegDefault : Word := 0xFFFFFFFF0935

/-- SIG_SAT_HI, default word (R27, D10). UNVERIFIED, log 7. -/
def sigSatHiDefault : Word := 0x00000000FB65

/-- SIG_SAT_LO, default word (R27, D10). UNVERIFIED, log 7. -/
def sigSatLoDefault : Word := 0x00000000049A

/-- The build-time contents of TANH_LUT: the open parameter (R26). -/
def tanhLutBuilt : Table := Vector.ofFn Config.tanhLut

/-- The build-time contents of SIG_LUT: the open parameter (R26). -/
def sigLutBuilt : Table := Vector.ofFn Config.sigLut

end Sys2Proof.Machine
end

