-- ==== Sys2Proof/Machine/State.lean ====
section
/-! DEFINITION. The state of the unit as plain data (spec/10_state.md R20 to R32; spec/70_reset_and_hazards.md R138), the
reasons a step can stop, and the state after reset. The unit has no registers, program counter, flags, control registers,
memory, exception state or privilege (R21, R24, R29, R30, R120, R127), so none stands here. -/

namespace Sys2Proof.Machine

/-- The read-only store: two segment tables and four saturation constants (R25, R27). Nothing writes it (R28), and reset
does not change it (R32). It is a field of the state, so a statement about every state holds for every table and every
saturation constant (R26, R27: the model takes them as parameters). -/
structure Rom where
  /-- TANH_LUT (R25). -/
  tanhLut : Table
  /-- SIG_LUT (R25). -/
  sigLut : Table
  /-- TANH_SAT_POS (R27). -/
  tanhSatPos : Word
  /-- TANH_SAT_NEG (R27). -/
  tanhSatNeg : Word
  /-- SIG_SAT_HI (R27). -/
  sigSatHi : Word
  /-- SIG_SAT_LO (R27). -/
  sigSatLo : Word
  deriving DecidableEq, Repr

/-- The faults of the unit: none. No operation raises an exception (R120), so this type has no constructor (log 14). -/
inductive Fault where
  deriving DecidableEq, Repr

/-- The refusals of the model. -/
inductive Refusal where
  /-- Raised by `exec` alone, for an instruction that has no meaning yet. Safe: nothing is claimed of it. Every
  instruction of this model has its meaning, so nothing raises it. -/
  | notModelled (mnemonic : String)
  deriving DecidableEq, Repr

/-- The state. `inflight`, `rom`, `r` are the spec's state (R32); `refused` is the run's mark (R122); `rValid`,
`responses`, `resets` and `schedule` are the model's own (logs 1, 3, 4). -/
structure State where
  /-- Requests accepted and not yet answered, oldest first (R31). -/
  inflight : List Request
  /-- The read-only tables and constants (R25, R27, R28). -/
  rom : Rom
  /-- The response port (R32). -/
  r : Word
  /-- A response was given since the last reset, so the host may read `r` (R32, R143). The model's own, log 4. -/
  rValid : Bool
  /-- The responses emitted so far, oldest first (R138 "emit response"). The model's own record, log 4. -/
  responses : List Word
  /-- The sticky refusal mark of the run (R122); reset does not clear it (90_conflicts.md C5). -/
  refused : Bool
  /-- How many reset events there were; only the free value of `r` reads it. The model's own, log 3. -/
  resets : Nat
  /-- Which agent moves next, first move first (R20, R138); when it is empty the unit moves. The model's own, log 1. -/
  schedule : List Turn
  deriving DecidableEq, Repr

/-- The read-only store as built (R26, R27, R32). -/
def Rom.built : Rom where
  tanhLut := tanhLutBuilt
  sigLut := sigLutBuilt
  tanhSatPos := tanhSatPosDefault
  tanhSatNeg := tanhSatNegDefault
  sigSatHi := sigSatHiDefault
  sigSatLo := sigSatLoDefault

/-- The machine right after reset (R32): nothing in flight, the read-only store as built, the port at a free value, no
refusal marked. -/
def State.reset : State where
  inflight := []
  rom := Rom.built
  r := Config.portAfterReset 0
  rValid := false
  responses := []
  refused := false
  resets := 0
  schedule := []

end Sys2Proof.Machine
end

