-- ==== Sys2Proof/Machine/Ops.lean ====
section
/-! DEFINITION. The named operations over the state: the transitions of spec/70_reset_and_hazards.md R138, one operation for
each effect, and the table read of spec/10_state.md R25. The unit takes no exceptions (R120, R125); what stands in the
place of exception entry is `markRefused` (R122). -/

namespace Sys2Proof.Machine

/-- `LutRead(T, k)`: entry k of table T, k in −16 .. 15, found at the physical address `trunc_5(k)` (R25, R42). -/
def lutRead (t : Table) (k : Int) : LutEntry := t.get (BitVec.ofInt 5 k).toFin

/-- `r <- v`: emit a response (R11, R51, R138). -/
def respond (v : Word) (s : State) : State :=
  { s with r := v, rValid := true, responses := s.responses ++ [v] }

/-- `inflight <- inflight ++ [req]` (R138 "host issue"). -/
def issue (q : Request) (s : State) : State := { s with inflight := s.inflight ++ [q] }

/-- `inflight <- rest` (R138 "unit respond"). -/
def dequeue (s : State) : State := { s with inflight := s.inflight.tail }

/-- The refusal of a request with a reserved op: the sticky mark is set, no response is given (R122, R138). -/
def markRefused (s : State) : State := { s with refused := true }

/-- The reset event: the requests in flight are discarded without response, the read-only store is kept, the port is
unspecified again (R32, R135, R138). The run's refusal mark stays (C5), and so do the responses already given and the
host's later moves (log 2). -/
def unitReset (s : State) : State :=
  { s with inflight := [], r := Config.portAfterReset (s.resets + 1), rValid := false, resets := s.resets + 1 }

/-- The move at the head of the schedule is made. -/
def endTurn (s : State) : State := { s with schedule := s.schedule.tail }

/-- Whose move is next: the schedule's head, and the unit's when the schedule is used up (log 1). -/
def nextTurn (s : State) : Turn := s.schedule.headD .unit

/-- The host's read of the response port, which changes nothing: no value before the first response after reset (R32, R143). -/
def State.readPort (s : State) : Option Word := if s.rValid then some s.r else none

/-- A request placed at the head of the queue, the next move the unit's: the request the very next step performs (log 16). -/
def placeRequest (q : Request) (s : State) : State :=
  { s with inflight := q :: s.inflight, schedule := .unit :: s.schedule }

end Sys2Proof.Machine
end

