-- ==== Sys2Proof/Machine/Operands.lean ====
section
/-! DEFINITION. Conversions and operand forms (spec/00_scope.md R10; spec/30_encoding.md R56; spec/41_activation.md R83;
spec/10_state.md R23). -/

namespace Sys2Proof.Machine

/-- `trunc_N(n)`: the N-bit word whose `uint` is `n mod 2^N` (R10). -/
def trunc (n : Nat) (z : Int) : BitVec n := BitVec.ofInt n z

/-- `zext_48(v)` (R10, R51). -/
def zext48 {n : Nat} (v : BitVec n) : Word := v.setWidth 48

/-- `sext_48(t)` of a table word (R10). -/
def sext48 (t : TableWord) : Word := t.signExtend 48

/-- `conv(t) = sext_48(t) << 5`: a 5.11 table word in the 48-bit format, its binary point aligned (R83, D9). UNVERIFIED, log 9. -/
def conv (t : TableWord) : Word := sext48 t <<< 5

/-- ID_MAKE's tile argument, `a[15:0]` (R56). -/
def tileArg (a : Word) : BitVec 16 := a.extractLsb' 0 16

/-- ID_MAKE's partition argument, `b[23:0]` (R56). -/
def partArg (b : Word) : BitVec 24 := b.extractLsb' 0 24

/-- ID_MAKE's index argument, `c[7:0]` (R56). -/
def localArg (c : Word) : BitVec 8 := c.extractLsb' 0 8

/-- `tile_id = id[47:32]` (R23). -/
def tileId (id : Word) : BitVec 16 := id.extractLsb' 32 16

/-- `partition_id = id[31:8]` (R23). -/
def partitionId (id : Word) : BitVec 24 := id.extractLsb' 8 24

/-- `local_index = id[7:0]` (R23). -/
def localIndex (id : Word) : BitVec 8 := id.extractLsb' 0 8

end Sys2Proof.Machine
end

