-- ==== Sys2Proof/Machine/Flags.lean ====
section
/-! DEFINITION. Conditions. The unit has no flags, condition codes or predicates (spec/10_state.md R24): a condition leaves
only as a response word (spec/30_encoding.md R57). -/

namespace Sys2Proof.Machine

/-- `bool1(p)`: the 1-bit word 1 when p holds and 0 otherwise (R10). -/
def bool1 (p : Bool) : BitVec 1 := BitVec.ofBool p

/-- `zext_48(bool1(p))`: 1 for true, 0 for false (R57). -/
def boolWord (p : Bool) : Word := zext48 (bool1 p)

end Sys2Proof.Machine
end

