-- ==== Sys2Proof/Machine/FixedPoint.lean ====
section
/-! DEFINITION. FXU, the fixed-point arithmetic core (spec/40_fixed_point.md R70 to R76): each result is computed from the exact
integers the operands denote and reduced once (R75). -/

namespace Sys2Proof.Machine

/-- FX_ADD's result: `trunc_48(sint(a) + sint(b))` (R70). -/
def fxAdd (a b : Word) : Word := trunc 48 (a.toInt + b.toInt)

/-- FX_SUB's result: `trunc_48(sint(a) − sint(b))` (R71). -/
def fxSub (a b : Word) : Word := trunc 48 (a.toInt - b.toInt)

/-- The full 96-bit signed product (R72). -/
def fxProduct (a b : Word) : BitVec 96 := trunc 96 (a.toInt * b.toInt)

/-- FX_MUL's result: bits 63:16 of the full product (R72). -/
def fxMul (a b : Word) : Word := (fxProduct a b).extractLsb' 16 48

/-- FX_ADD (R70). -/
def execFxAdd (a b : Word) (s : State) : Host.Outcome State Fault Refusal := .next (respond (fxAdd a b) s)

/-- FX_SUB (R71). -/
def execFxSub (a b : Word) (s : State) : Host.Outcome State Fault Refusal := .next (respond (fxSub a b) s)

/-- FX_MUL (R72). -/
def execFxMul (a b : Word) (s : State) : Host.Outcome State Fault Refusal := .next (respond (fxMul a b) s)

end Sys2Proof.Machine
end

