-- ==== Sys2Proof/Machine/Activation.lean ====
section
/-! DEFINITION. ACT, the activation approximator (spec/41_activation.md R80 to R91): one algorithm with the window position, the
table and the two saturation constants as arguments. -/

namespace Sys2Proof.Machine

/-- The 5-bit selector `x[47] ++ x[L+3:L]` (R81). -/
def selector (x : Word) (L : Nat) : BitVec 5 := x.extractLsb' 47 1 ++ x.extractLsb' L 4

/-- The overflow test: some bit i in L+4 .. 46 differs from the sign bit (R82). -/
def overflows (x : Word) (L : Nat) : Bool :=
  (List.range 47).any (fun i => decide (L + 4 ≤ i) && (x.getLsbD i != x.getLsbD 47))

/-- The segment's affine map, multiply first, each step by the FXU's own rule and never fused (R84, R87). -/
def segmentMap (e : LutEntry) (x : Word) : Word := fxAdd (fxMul (conv e.coef) x) (conv e.icpt)

/-- `approx(x, L, T, SAT_NEG, SAT_POS)`: on overflow the saturation constant of x's sign, with no table read; else the
segment of the entry at the signed index (R80 to R84). -/
def approx (x : Word) (L : Nat) (t : Table) (satNeg satPos : Word) : Word :=
  if overflows x L then
    if x.getLsbD 47 then satNeg else satPos
  else
    segmentMap (lutRead t (selector x L).toInt) x

/-- TANH's result (R85). -/
def tanhWord (m : Rom) (x : Word) : Word := approx x tanhSelLo m.tanhLut m.tanhSatNeg m.tanhSatPos

/-- SIGMOID's result (R86). -/
def sigmoidWord (m : Rom) (x : Word) : Word := approx x sigSelLo m.sigLut m.sigSatLo m.sigSatHi

/-- TANH (R85). -/
def execTanh (a : Word) (s : State) : Host.Outcome State Fault Refusal := .next (respond (tanhWord s.rom a) s)

/-- SIGMOID (R86). -/
def execSigmoid (a : Word) (s : State) : Host.Outcome State Fault Refusal := .next (respond (sigmoidWord s.rom a) s)

end Sys2Proof.Machine
end

