-- ==== Sys2Proof/Machine/NodeId.lean ====
section
/-! DEFINITION. NID, the node identifier codec (spec/42_node_id.md R100 to R112; format of spec/10_state.md R23). The order is the
unsigned order of the packed words (R104). -/

namespace Sys2Proof.Machine

/-- ID_MAKE's result: `a[15:0] ++ b[23:0] ++ c[7:0]` (R100). -/
def makeId (a b c : Word) : Word := tileArg a ++ partArg b ++ localArg c

/-- `uint(p) = uint(q)` (R105). -/
def sameId (p q : Word) : Bool := p.toNat = q.toNat

/-- `uint(p) < uint(q)` (R104). -/
def precedes (p q : Word) : Bool := p.toNat < q.toNat

/-- ID_MAKE (R100). -/
def execIdMake (a b c : Word) (s : State) : Host.Outcome State Fault Refusal := .next (respond (makeId a b c) s)

/-- ID_TILE (R101). -/
def execIdTile (a : Word) (s : State) : Host.Outcome State Fault Refusal := .next (respond (zext48 (tileId a)) s)

/-- ID_PART (R102). -/
def execIdPart (a : Word) (s : State) : Host.Outcome State Fault Refusal := .next (respond (zext48 (partitionId a)) s)

/-- ID_LOCAL (R103). -/
def execIdLocal (a : Word) (s : State) : Host.Outcome State Fault Refusal := .next (respond (zext48 (localIndex a)) s)

/-- ID_EQ (R105). -/
def execIdEq (a b : Word) (s : State) : Host.Outcome State Fault Refusal := .next (respond (boolWord (sameId a b)) s)

/-- ID_NE, derived from equality (R106). -/
def execIdNe (a b : Word) (s : State) : Host.Outcome State Fault Refusal := .next (respond (boolWord (!sameId a b)) s)

/-- ID_LT (R107). -/
def execIdLt (a b : Word) (s : State) : Host.Outcome State Fault Refusal := .next (respond (boolWord (precedes a b)) s)

/-- ID_GT, less-than with the operands exchanged (R108). -/
def execIdGt (a b : Word) (s : State) : Host.Outcome State Fault Refusal := .next (respond (boolWord (precedes b a)) s)

/-- ID_LE, "not q < p" (R109). -/
def execIdLe (a b : Word) (s : State) : Host.Outcome State Fault Refusal := .next (respond (boolWord (!precedes b a)) s)

/-- ID_GE, "not p < q" (R110). -/
def execIdGe (a b : Word) (s : State) : Host.Outcome State Fault Refusal := .next (respond (boolWord (!precedes a b)) s)

end Sys2Proof.Machine
end

