-- ==== Sys2Proof/Machine/Dispatch.lean ====
section
/-! DEFINITION. One arm per operation of spec/30_encoding.md R52, in its order. -/

namespace Sys2Proof.Machine

def exec (i : Instr) (s : State) : Host.Outcome State Fault Refusal :=
  match i with
  | .fxAdd a b => Sys2Proof.Machine.execFxAdd a b s
  | .fxSub a b => Sys2Proof.Machine.execFxSub a b s
  | .fxMul a b => Sys2Proof.Machine.execFxMul a b s
  | .tanh a => Sys2Proof.Machine.execTanh a s
  | .sigmoid a => Sys2Proof.Machine.execSigmoid a s
  | .idMake a b c => Sys2Proof.Machine.execIdMake a b c s
  | .idTile a => Sys2Proof.Machine.execIdTile a s
  | .idPart a => Sys2Proof.Machine.execIdPart a s
  | .idLocal a => Sys2Proof.Machine.execIdLocal a s
  | .idEq a b => Sys2Proof.Machine.execIdEq a b s
  | .idNe a b => Sys2Proof.Machine.execIdNe a b s
  | .idLt a b => Sys2Proof.Machine.execIdLt a b s
  | .idGt a b => Sys2Proof.Machine.execIdGt a b s
  | .idLe a b => Sys2Proof.Machine.execIdLe a b s
  | .idGe a b => Sys2Proof.Machine.execIdGe a b s

end Sys2Proof.Machine
end

