-- ==== Sys2Proof/Machine/Step.lean ====
section
/-! DEFINITION. One step: the next move of the schedule (spec/70_reset_and_hazards.md R138). The operations it calls stand in
Machine/Ops.lean and Decode.lean. -/

namespace Sys2Proof.Machine

/-- The unit's move. Enabled when a request is in flight: the head is taken and answered, or, with a reserved op, refused
(R138). With nothing in flight the move is not enabled and nothing changes (log 1). -/
def unitMove (s : State) : Host.Outcome State Fault Refusal :=
  match s.inflight with
  | [] => .next s
  | q :: _ =>
    match decode q with
    | .ok i => exec i (dequeue s)
    | .error _ => .next (markRefused (dequeue s))

/-- One step of the two agents (R20, R138). -/
def step (s : State) : Host.Outcome State Fault Refusal :=
  match nextTurn s with
  | .issue q => .next (issue q (endTurn s))
  | .reset => .next (unitReset (endTurn s))
  | .unit => unitMove (endTurn s)

/-- The state with the request whose bits are w placed where the unit takes its next request from, the next move being the
unit's: what a host's issue would have done to an idle unit (log 16). -/
def State.withFetchWord (s : State) (nbits w : Nat) : State := placeRequest (tableRequest nbits w) s

end Sys2Proof.Machine
end

