-- ==== Sys2Proof/Machine/Assembler.lean ====
section
/-! DEFINITION. The notation of spec/30_encoding.md R60 and R61 as abstract lines: which request a line stands for. It is notation
for the host's side (D26); no step reads it. -/

namespace Sys2Proof.Machine

/-- The mnemonic of an operation, as R52 and spec/opcode_table.json spell it. -/
def mnemonicOf : Op → String
  | .fxAdd => "FX_ADD"
  | .fxSub => "FX_SUB"
  | .fxMul => "FX_MUL"
  | .tanh => "TANH"
  | .sigmoid => "SIGMOID"
  | .idMake => "ID_MAKE"
  | .idTile => "ID_TILE"
  | .idPart => "ID_PART"
  | .idLocal => "ID_LOCAL"
  | .idEq => "ID_EQ"
  | .idNe => "ID_NE"
  | .idLt => "ID_LT"
  | .idGt => "ID_GT"
  | .idLe => "ID_LE"
  | .idGe => "ID_GE"

/-- How many operands an operation reads (R52 column "reads"). -/
def arity (o : Op) : Nat := 1 + o.readsB.toNat + o.readsC.toNat

/-- The word an operand stands for, given the responses bound so far, latest first; an unbound name stands for none (R60). -/
def operandValue (bound : List (String × Word)) : Operand → Option Word
  | .hex w => some w
  | .fxLit n d => some (fx n d)
  | .name x => bound.lookup x

/-- The request of an operation with exactly the operands it reads, unread fields zero; none with another number of them (R60). -/
def requestOf (o : Op) (vs : List Word) : Option Request :=
  if vs.length = arity o then some ⟨o.code, vs.getD 0 0, vs.getD 1 0, vs.getD 2 0⟩ else none

/-- The request a line stands for; a pseudo-instruction expands to exactly one request (R60, R61). -/
def assembleLine (bound : List (String × Word)) (l : Line) : Option Request :=
  match l.args.mapM (operandValue bound) with
  | none => none
  | some vs =>
    match l.mnemonic with
    | .op o => requestOf o vs
    | .fxNeg => requestOf .fxSub (0 :: vs)
    | .fxMov => requestOf .fxAdd (vs ++ [0])

/-- The line that lists an instruction's operands as hex words (R60). -/
def lineOf (i : Instr) : Line :=
  match i with
  | .fxAdd a b => ⟨none, .op .fxAdd, [.hex a, .hex b]⟩
  | .fxSub a b => ⟨none, .op .fxSub, [.hex a, .hex b]⟩
  | .fxMul a b => ⟨none, .op .fxMul, [.hex a, .hex b]⟩
  | .tanh a => ⟨none, .op .tanh, [.hex a]⟩
  | .sigmoid a => ⟨none, .op .sigmoid, [.hex a]⟩
  | .idMake a b c => ⟨none, .op .idMake, [.hex a, .hex b, .hex c]⟩
  | .idTile a => ⟨none, .op .idTile, [.hex a]⟩
  | .idPart a => ⟨none, .op .idPart, [.hex a]⟩
  | .idLocal a => ⟨none, .op .idLocal, [.hex a]⟩
  | .idEq a b => ⟨none, .op .idEq, [.hex a, .hex b]⟩
  | .idNe a b => ⟨none, .op .idNe, [.hex a, .hex b]⟩
  | .idLt a b => ⟨none, .op .idLt, [.hex a, .hex b]⟩
  | .idGt a b => ⟨none, .op .idGt, [.hex a, .hex b]⟩
  | .idLe a b => ⟨none, .op .idLe, [.hex a, .hex b]⟩
  | .idGe a b => ⟨none, .op .idGe, [.hex a, .hex b]⟩

end Sys2Proof.Machine
end

