-- ==== Sys2Proof/Machine/Records.lean ====
section
/-! DEFINITION. The packed layouts of the identifier records (spec/30_encoding.md R58). Data formats only: no operation reads or
builds a record (spec/00_scope.md R6; log 13). -/

namespace Sys2Proof.Machine

/-- `src ++ dst`, 96 bits, src in bits 95:48 (R58). -/
def packConnection (k : Connection) : BitVec 96 := k.src ++ k.dst

/-- The connection a 96-bit pattern holds; every pattern holds one (R58). -/
def unpackConnection (w : BitVec 96) : Connection := ⟨w.extractLsb' 48 48, w.extractLsb' 0 48⟩

/-- `dst`, 48 bits (R58). -/
def packPendingUpdate (u : PendingUpdate) : Word := u.dst

/-- The pending update a 48-bit pattern holds (R58). -/
def unpackPendingUpdate (w : Word) : PendingUpdate := ⟨w⟩

end Sys2Proof.Machine
end

