-- ==== Sys2Proof/Safety.lean ====
section
/-! DEFINITION. The terms claims are stated in: the answer to a request as a function of the request and the read-only store
(spec/70_reset_and_hazards.md R138 `f`), the end of a run and a clean end (R139), the host's duties (R143), the
assumptions a claim may place on the tables (spec/41_activation.md R88), and the real-valued reading (spec/00_scope.md R12). -/

namespace Sys2Proof.Machine

/-- The response word of an instruction: a function of its operands and the read-only store alone (R44, R138). -/
def responseOf (m : Rom) (i : Instr) : Word :=
  match i with
  | .fxAdd a b => fxAdd a b
  | .fxSub a b => fxSub a b
  | .fxMul a b => fxMul a b
  | .tanh a => tanhWord m a
  | .sigmoid a => sigmoidWord m a
  | .idMake a b c => makeId a b c
  | .idTile a => zext48 (tileId a)
  | .idPart a => zext48 (partitionId a)
  | .idLocal a => zext48 (localIndex a)
  | .idEq a b => boolWord (sameId a b)
  | .idNe a b => boolWord (!sameId a b)
  | .idLt a b => boolWord (precedes a b)
  | .idGt a b => boolWord (precedes b a)
  | .idLe a b => boolWord (!precedes b a)
  | .idGe a b => boolWord (!precedes a b)

/-- `f(req)` of R138, where the op is assigned; no value where it is reserved (R54, R122). -/
def answer (m : Rom) (q : Request) : Option Word := (decode q).toOption.map (responseOf m)

/-- The answers to a queue of requests, in its order (R137). -/
def answers (m : Rom) (qs : List Request) : List Word := qs.filterMap (answer m)

/-- The request a turn issues, if any. -/
def issuedBy : Turn → Option Request
  | .issue q => some q
  | .reset => none
  | .unit => none

/-- The requests a schedule issues, in issue order. -/
def issued (ts : List Turn) : List Request := ts.filterMap issuedBy

/-- No reset event in a schedule. -/
def resetFree (ts : List Turn) : Bool := ts.all (fun t => decide (t ≠ .reset))

/-- Every response given and still owed: those emitted, then the answers to what is in flight, then to what the host will
still issue (R137). -/
def owed (s : State) : List Word := s.responses ++ answers s.rom (s.inflight ++ issued s.schedule)

/-- A run is over: everything issued since the last reset was taken from the queue (R139). -/
def State.over (s : State) : Bool := s.inflight.isEmpty

/-- A run ended cleanly: it is over and no refusal is marked (R139). -/
def State.endedCleanly (s : State) : Bool := s.over && !s.refused

/-- The host keeps its duty "use an assigned op only" in all it has issued and will issue (R54, R143). -/
def State.hostObeys (s : State) : Bool := s.inflight.all Request.wellFormed && scheduleWellFormed s.schedule

/-- Where a response was given since the last reset, the port shows the last one given (R32, R138). -/
def State.portCurrent (s : State) : Prop := s.rValid = true → s.responses.getLast? = some s.r

/-- The real number a fixed-point word denotes, `sint(v) / 2^16` (R12). -/
def realOfWord (v : Word) : Rat := (v.toInt : Rat) / 2 ^ 16

/-- The real number a table word denotes, `sint(t) / 2^11` (R12). -/
def realOfTableWord (t : TableWord) : Rat := (t.toInt : Rat) / 2 ^ 11

/-- An assumption a claim may place on the tables: TANH's in-domain results lie between its saturation words (R88; C3). -/
def TanhBounded (m : Rom) : Prop :=
  ∀ x : Word, overflows x tanhSelLo = false →
    m.tanhSatNeg.toInt ≤ (tanhWord m x).toInt ∧ (tanhWord m x).toInt ≤ m.tanhSatPos.toInt

/-- An assumption a claim may place on the tables: SIGMOID's in-domain results lie between its saturation words (R88; C3). -/
def SigmoidBounded (m : Rom) : Prop :=
  ∀ x : Word, overflows x sigSelLo = false →
    m.sigSatLo.toInt ≤ (sigmoidWord m x).toInt ∧ (sigmoidWord m x).toInt ≤ m.sigSatHi.toInt

/-- An assumption a claim may place on the tables: entry 0's intercept is within tol of zero; the spec gives no tolerance
(R88; log 15). -/
def TanhZeroWithin (m : Rom) (tol : Nat) : Prop := (conv (lutRead m.tanhLut 0).icpt).toInt.natAbs ≤ tol

/-- An assumption a claim may place on the tables: segment −k−1 mirrors segment k, coefficients equal within one tolerance
and intercepts negated within another; the spec gives neither (R88; C4; log 15). -/
def TanhMirrored (m : Rom) (tolCoef tolIcpt : Nat) : Prop :=
  ∀ k : Fin 16,
    ((lutRead m.tanhLut (-(k.val : Int) - 1)).coef.toInt - (lutRead m.tanhLut k.val).coef.toInt).natAbs ≤ tolCoef ∧
    ((lutRead m.tanhLut (-(k.val : Int) - 1)).icpt.toInt + (lutRead m.tanhLut k.val).icpt.toInt).natAbs ≤ tolIcpt

end Sys2Proof.Machine
end

