-- ==== Sys2Proof/Certificates/Slice0/Obligations.lean ====
section
/-! DEFINITION. The statements for the provers, from the numbered rules of spec/. `answered v s` is the state s after a response v
and nothing else, so an equation `exec i s = .next (answered v s)` is an instruction's result, its completion and its frame
in one. -/

open Sys2Proof Sys2Proof.Machine

/-- The state after the response v, written out: the port and the record of responses change, nothing else does. -/
def Sys2Proof.Machine.answered (v : Word) (s : State) : State :=
  { s with r := v, rValid := true, responses := s.responses ++ [v] }

/-! ### Fixed-point arithmetic -/

/-- R70, but for the part R70 marks as derived (see `FxAddIsUnsignedSum`). -/
def Obligations.FxAddRespondsWrappedSum : Prop :=
  ∀ (a b c : Word) (s : State),
    decode ⟨0x01, a, b, c⟩ = .ok (.fxAdd a b) ∧
    exec (.fxAdd a b) s = .next (answered (BitVec.ofInt 48 (a.toInt + b.toInt)) s) ∧
    -(2 ^ 48) ≤ a.toInt + b.toInt ∧ a.toInt + b.toInt ≤ 2 ^ 48 - 2 ∧
    exec (.fxAdd a 0) s = .next (answered a s) ∧ exec (.fxAdd 0 b) s = .next (answered b s) ∧
    exec (.fxAdd 0x7FFFFFFFFFFF 0x000000000001) s = .next (answered 0x800000000000 s) ∧
    exec (.fxAdd 0x800000000000 0x800000000000) s = .next (answered 0x000000000000 s) ∧
    exec (.fxAdd 0x000000018000 0xFFFFFFFF8000) s = .next (answered 0x000000010000 s)

/-- R71. -/
def Obligations.FxSubRespondsWrappedDifference : Prop :=
  ∀ (a b c : Word) (s : State),
    decode ⟨0x02, a, b, c⟩ = .ok (.fxSub a b) ∧
    exec (.fxSub a b) s = .next (answered (BitVec.ofInt 48 (a.toInt - b.toInt)) s) ∧
    -(2 ^ 48) + 1 ≤ a.toInt - b.toInt ∧ a.toInt - b.toInt ≤ 2 ^ 48 - 1 ∧
    exec (.fxSub a a) s = .next (answered 0 s) ∧
    exec (.fxSub 0x800000000000 0x000000000001) s = .next (answered 0x7FFFFFFFFFFF s) ∧
    exec (.fxSub 0x000000000000 0x800000000000) s = .next (answered 0x800000000000 s) ∧
    exec (.fxSub 0x000000000000 0x000000000001) s = .next (answered 0xFFFFFFFFFFFF s) ∧
    exec (.fxSub 0x000000010000 0x000000018000) s = .next (answered 0xFFFFFFFF8000 s)

/-- R72, but for its equivalent reading marked as derived (see `FxMulFloorsTheScaledProduct`). -/
def Obligations.FxMulRespondsProductWindow : Prop :=
  ∀ (a b c : Word) (s : State),
    decode ⟨0x03, a, b, c⟩ = .ok (.fxMul a b) ∧
    exec (.fxMul a b) s =
      .next (answered ((BitVec.ofInt 96 (a.toInt * b.toInt)).extractLsb' 16 48) s) ∧
    -(2 ^ 94) + 2 ^ 47 ≤ a.toInt * b.toInt ∧ a.toInt * b.toInt ≤ 2 ^ 94 ∧
    (BitVec.ofInt 96 (a.toInt * b.toInt)).toInt = a.toInt * b.toInt ∧
    exec (.fxMul a 0x000000010000) s = .next (answered a s) ∧
    exec (.fxMul 0x000000010000 b) s = .next (answered b s) ∧
    exec (.fxMul a 0) s = .next (answered 0 s) ∧ exec (.fxMul 0 b) s = .next (answered 0 s) ∧
    exec (.fxMul 0x000000000001 0x000000000001) s = .next (answered 0x000000000000 s) ∧
    exec (.fxMul 0xFFFFFFFFFFFF 0x000000000001) s = .next (answered 0xFFFFFFFFFFFF s) ∧
    exec (.fxMul 0x000100000000 0x000100000000) s = .next (answered 0x000000000000 s) ∧
    exec (.fxMul 0x800000000000 0x800000000000) s = .next (answered 0x000000000000 s) ∧
    exec (.fxMul 0x800000000000 0xFFFFFFFF0000) s = .next (answered 0x800000000000 s) ∧
    exec (.fxMul 0x000000018000 0xFFFFFFFE0000) s = .next (answered 0xFFFFFFFD0000 s)

/-- The reading of R70 that the spec marks as derived: the sum of the unsigned readings gives the same word. -/
def Obligations.FxAddIsUnsignedSum : Prop :=
  ∀ (a b : Word) (s : State),
    exec (.fxAdd a b) s = .next (answered (BitVec.ofNat 48 (a.toNat + b.toNat)) s)

/-- The reading of R72 that the spec marks as derived: the product divided by 2^16 toward negative infinity, wrapped. -/
def Obligations.FxMulFloorsTheScaledProduct : Prop :=
  ∀ (a b : Word) (s : State),
    exec (.fxMul a b) s = .next (answered (BitVec.ofInt 48 (Int.fdiv (a.toInt * b.toInt) (2 ^ 16))) s)

/-- The laws of FX_ADD and FX_SUB that R74 derives. -/
def Obligations.FxAddSubGroupLaws : Prop :=
  ∀ a b c : Word,
    fxAdd a b = fxAdd b a ∧ fxAdd (fxAdd a b) c = fxAdd a (fxAdd b c) ∧ fxAdd a 0 = a ∧
    fxSub a b = fxAdd a (fxSub 0 b) ∧ fxAdd (fxSub a b) b = a

/-- The laws of FX_MUL that R74 derives, and the two that it says fail. -/
def Obligations.FxMulLawsAndTheirLimits : Prop :=
  (∀ a b : Word, fxMul a b = fxMul b a ∧ fxMul a 0x000000010000 = a ∧ fxMul a 0 = 0) ∧
  (∃ a b c : Word, fxMul (fxMul a b) c ≠ fxMul a (fxMul b c)) ∧
  (∃ a b c : Word, fxMul a (fxAdd b c) ≠ fxAdd (fxMul a b) (fxMul a c))

/-- R61: the two pseudo-instructions, each exactly one request, with what that request answers. -/
def Obligations.PseudoOpsExpandToOneRequest : Prop :=
  ∀ (a : Word) (bound : List (String × Word)) (bind : Option String) (s : State),
    assembleLine bound ⟨bind, .fxNeg, [.hex a]⟩ = some (encode (.fxSub 0x000000000000 a)) ∧
    assembleLine bound ⟨bind, .fxMov, [.hex a]⟩ = some (encode (.fxAdd a 0x000000000000)) ∧
    exec (Instr.fxNeg a) s = .next (answered (-a) s) ∧ exec (Instr.fxMov a) s = .next (answered a s)

/-! ### Activation approximator -/

/-- R25, the layout of a table: 32 entries of two 16-bit words, entry k at address k for k in 0 .. 15 and k + 32 for k in
−16 .. −1, which is the selector word read unsigned. -/
def Obligations.TableReadFindsEntryAtAddress : Prop :=
  ∀ t : Table,
    (∀ k : Int, 0 ≤ k → k ≤ 15 → t.toList[k.toNat]? = some (lutRead t k)) ∧
    (∀ k : Int, -16 ≤ k → k ≤ -1 → t.toList[(k + 32).toNat]? = some (lutRead t k)) ∧
    (∀ rng : BitVec 5, t.toList[rng.toNat]? = some (lutRead t rng.toInt))

/-- R83: the conversion is sign extension and a shift by 5, it keeps the real value, and no bit is lost. -/
def Obligations.TableWordConversionKeepsValue : Prop :=
  ∀ t : TableWord,
    conv t = (t.signExtend 48) <<< 5 ∧ (conv t).toInt = t.toInt * 2 ^ 5 ∧
    realOfWord (conv t) = realOfTableWord t ∧ t.toInt.natAbs * 2 ^ 5 ≤ 2 ^ 20

/-- R85 at the spec's window x[16:13] (R8, D7), with its corner cases; the domain as an interval, which R85 marks as derived,
is `ActivationDomain` and `TanhDomainEdges`. -/
def Obligations.TanhRespondsSegmentOrSaturation : Prop :=
  ∀ (a b c : Word) (s : State),
    decode ⟨0x10, a, b, c⟩ = .ok (.tanh a) ∧
    ((∃ i, 17 ≤ i ∧ i ≤ 46 ∧ a.getLsbD i ≠ a.getLsbD 47) →
      exec (.tanh a) s =
        .next (answered (if a.getLsbD 47 then s.rom.tanhSatNeg else s.rom.tanhSatPos) s)) ∧
    ((∀ i, 17 ≤ i → i ≤ 46 → a.getLsbD i = a.getLsbD 47) →
      ∀ e : LutEntry, e = lutRead s.rom.tanhLut (a.extractLsb' 47 1 ++ a.extractLsb' 13 4 : BitVec 5).toInt →
        exec (.tanh a) s = .next (answered (fxAdd (fxMul (conv e.coef) a) (conv e.icpt)) s)) ∧
    exec (.tanh 0xFFFFFFFE0000) s =
      .next (answered (segmentMap (lutRead s.rom.tanhLut (-16)) 0xFFFFFFFE0000) s) ∧
    exec (.tanh 0x000000020000) s = .next (answered s.rom.tanhSatPos s) ∧
    exec (.tanh 0x800000000000) s = .next (answered s.rom.tanhSatNeg s) ∧
    exec (.tanh 0x7FFFFFFFFFFF) s = .next (answered s.rom.tanhSatPos s) ∧
    exec (.tanh 0) s = .next (answered (conv (lutRead s.rom.tanhLut 0).icpt) s) ∧
    exec (.tanh 0x000000320000) s = .next (answered s.rom.tanhSatPos s) ∧
    State.reset.rom.tanhSatPos = 0x00000000F6CA

/-- R86 at the spec's window x[17:14] (R8, D8), with its corner cases; the domain as an interval, which R86 marks as derived,
is `ActivationDomain` and `SigmoidDomainEdges`. -/
def Obligations.SigmoidRespondsSegmentOrSaturation : Prop :=
  ∀ (a b c : Word) (s : State),
    decode ⟨0x11, a, b, c⟩ = .ok (.sigmoid a) ∧
    ((∃ i, 18 ≤ i ∧ i ≤ 46 ∧ a.getLsbD i ≠ a.getLsbD 47) →
      exec (.sigmoid a) s =
        .next (answered (if a.getLsbD 47 then s.rom.sigSatLo else s.rom.sigSatHi) s)) ∧
    ((∀ i, 18 ≤ i → i ≤ 46 → a.getLsbD i = a.getLsbD 47) →
      ∀ e : LutEntry, e = lutRead s.rom.sigLut (a.extractLsb' 47 1 ++ a.extractLsb' 14 4 : BitVec 5).toInt →
        exec (.sigmoid a) s = .next (answered (fxAdd (fxMul (conv e.coef) a) (conv e.icpt)) s)) ∧
    exec (.sigmoid 0xFFFFFFFC0000) s =
      .next (answered (segmentMap (lutRead s.rom.sigLut (-16)) 0xFFFFFFFC0000) s) ∧
    exec (.sigmoid 0x000000040000) s = .next (answered s.rom.sigSatHi s) ∧
    exec (.sigmoid 0x000000320000) s = .next (answered s.rom.sigSatHi s) ∧
    State.reset.rom.sigSatLo = 0x00000000049A ∧ State.reset.rom.sigSatHi = 0x00000000FB65

/-- What R82 derives, for every window position: the domain as an interval, and there the index as a floor. -/
def Obligations.ActivationDomain : Prop :=
  ∀ (x : Word) (L : Nat), L ≤ 43 →
    (overflows x L = false ↔ -16 * 2 ^ L ≤ x.toInt ∧ x.toInt < 16 * 2 ^ L) ∧
    (overflows x L = false → (selector x L).toInt = Int.fdiv x.toInt (2 ^ L))

/-- What R85 derives from the tanh window: outside −2^17 .. 2^17 − 1 the saturation constant of the sign, inside the
segment whose index is the floor of x / 2^13 (the window is the spec's D7, log 8). -/
def Obligations.TanhDomainEdges : Prop :=
  ∀ (a : Word) (s : State),
    (2 ^ 17 ≤ a.toInt → exec (.tanh a) s = .next (answered s.rom.tanhSatPos s)) ∧
    (a.toInt < -(2 ^ 17) → exec (.tanh a) s = .next (answered s.rom.tanhSatNeg s)) ∧
    (-(2 ^ 17) ≤ a.toInt → a.toInt < 2 ^ 17 →
      exec (.tanh a) s = .next (answered (segmentMap (lutRead s.rom.tanhLut (Int.fdiv a.toInt (2 ^ 13))) a) s))

/-- What R86 derives from the sigmoid window: outside −2^18 .. 2^18 − 1 the saturation constant of the sign, inside the
segment whose index is the floor of x / 2^14 (the window is the spec's D8, log 8). -/
def Obligations.SigmoidDomainEdges : Prop :=
  ∀ (a : Word) (s : State),
    (2 ^ 18 ≤ a.toInt → exec (.sigmoid a) s = .next (answered s.rom.sigSatHi s)) ∧
    (a.toInt < -(2 ^ 18) → exec (.sigmoid a) s = .next (answered s.rom.sigSatLo s)) ∧
    (-(2 ^ 18) ≤ a.toInt → a.toInt < 2 ^ 18 →
      exec (.sigmoid a) s = .next (answered (segmentMap (lutRead s.rom.sigLut (Int.fdiv a.toInt (2 ^ 14))) a) s))

/-- What R89 derives: at zero the response is exactly the intercept of entry 0, for every table. -/
def Obligations.ActivationAtZeroIsIntercept : Prop :=
  ∀ s : State,
    exec (.tanh 0) s = .next (answered (conv (lutRead s.rom.tanhLut 0).icpt) s) ∧
    exec (.sigmoid 0) s = .next (answered (conv (lutRead s.rom.sigLut 0).icpt) s)

/-- What R84 derives: inside the domain neither the multiply nor the add wraps, so the segment's integer value is the
floored product plus the intercept, and the result stays below 80 in real units. -/
def Obligations.SegmentNeverWrapsInDomain : Prop :=
  ∀ (x : Word) (L : Nat) (e : LutEntry), L ≤ 14 → overflows x L = false →
    (segmentMap e x).toInt = Int.fdiv (e.coef.toInt * 2 ^ 5 * x.toInt) (2 ^ 16) + e.icpt.toInt * 2 ^ 5 ∧
    (segmentMap e x).toInt.natAbs < 80 * 2 ^ 16

/-- R88's boundedness carried from the in-domain results, where it is an assumption about the tables, to every input. -/
def Obligations.ActivationBoundedUnderTableAssumption : Prop :=
  ∀ (x : Word) (s : State),
    (TanhBounded s.rom → s.rom.tanhSatNeg.toInt ≤ s.rom.tanhSatPos.toInt →
      ∃ t, exec (.tanh x) s = .next t ∧ s.rom.tanhSatNeg.toInt ≤ t.r.toInt ∧ t.r.toInt ≤ s.rom.tanhSatPos.toInt) ∧
    (SigmoidBounded s.rom → s.rom.sigSatLo.toInt ≤ s.rom.sigSatHi.toInt →
      ∃ t, exec (.sigmoid x) s = .next t ∧ s.rom.sigSatLo.toInt ≤ t.r.toInt ∧ t.r.toInt ≤ s.rom.sigSatHi.toInt)

/-! ### Node identifier codec -/

/-- R100. -/
def Obligations.IdMakePacksTruncatedFields : Prop :=
  ∀ (a b c : Word) (s : State),
    decode ⟨0x20, a, b, c⟩ = .ok (.idMake a b c) ∧
    exec (.idMake a b c) s =
      .next (answered (a.extractLsb' 0 16 ++ b.extractLsb' 0 24 ++ c.extractLsb' 0 8 : BitVec 48) s) ∧
    exec (.idMake 0x00000001FFFF b c) s = exec (.idMake 0x00000000FFFF b c) s ∧
    exec (.idMake a 0x000001000002 c) s = exec (.idMake a 0x000000000002 c) s ∧
    exec (.idMake a b 0x0000000001FF) s = exec (.idMake a b 0x0000000000FF) s ∧
    exec (.idMake 0x000000000001 0x000000000002 0x000000000003) s = .next (answered 0x000100000203 s)

/-- R101. -/
def Obligations.IdTileRespondsTileField : Prop :=
  ∀ (a b c : Word) (s : State),
    decode ⟨0x21, a, b, c⟩ = .ok (.idTile a) ∧
    exec (.idTile a) s = .next (answered ((a.extractLsb' 32 16).setWidth 48) s) ∧
    ((a.extractLsb' 32 16).setWidth 48).toNat ≤ 0xFFFF ∧
    exec (.idTile 0xFFFF000002FF) s = .next (answered 0x00000000FFFF s)

/-- R102. -/
def Obligations.IdPartRespondsPartitionField : Prop :=
  ∀ (a b c : Word) (s : State),
    decode ⟨0x22, a, b, c⟩ = .ok (.idPart a) ∧
    exec (.idPart a) s = .next (answered ((a.extractLsb' 8 24).setWidth 48) s) ∧
    ((a.extractLsb' 8 24).setWidth 48).toNat ≤ 0xFFFFFF ∧
    exec (.idPart 0x000100000203) s = .next (answered 0x000000000002 s)

/-- R103. -/
def Obligations.IdLocalRespondsIndexField : Prop :=
  ∀ (a b c : Word) (s : State),
    decode ⟨0x23, a, b, c⟩ = .ok (.idLocal a) ∧
    exec (.idLocal a) s = .next (answered ((a.extractLsb' 0 8).setWidth 48) s) ∧
    ((a.extractLsb' 0 8).setWidth 48).toNat ≤ 0xFF ∧
    exec (.idLocal 0x000100000203) s = .next (answered 0x000000000003 s)

/-- R105. -/
def Obligations.IdEqRespondsEquality : Prop :=
  ∀ (a b c : Word) (s : State),
    decode ⟨0x30, a, b, c⟩ = .ok (.idEq a b) ∧
    exec (.idEq a b) s = .next (answered (if a.toNat = b.toNat then 1 else 0) s) ∧
    exec (.idEq a a) s = .next (answered 1 s) ∧
    (localIndex a ≠ localIndex b → exec (.idEq a b) s = .next (answered 0 s)) ∧
    exec (.idEq 0x000100000203 0x000100000203) s = .next (answered 1 s)

/-- R106. -/
def Obligations.IdNeRespondsInequality : Prop :=
  ∀ (a b c : Word) (s : State),
    decode ⟨0x31, a, b, c⟩ = .ok (.idNe a b) ∧
    exec (.idNe a b) s = .next (answered (if ¬ a.toNat = b.toNat then 1 else 0) s) ∧
    exec (.idNe a a) s = .next (answered 0 s) ∧
    exec (.idNe 0x000100000203 0x000100000204) s = .next (answered 1 s)

/-- R107. -/
def Obligations.IdLtRespondsUnsignedLess : Prop :=
  ∀ (a b c : Word) (s : State),
    decode ⟨0x32, a, b, c⟩ = .ok (.idLt a b) ∧
    exec (.idLt a b) s = .next (answered (if a.toNat < b.toNat then 1 else 0) s) ∧
    exec (.idLt a a) s = .next (answered 0 s) ∧
    exec (.idLt 0x7FFFFFFFFFFF 0x800000000000) s = .next (answered 1 s) ∧
    exec (.idLt 0x000100000203 0x000100000204) s = .next (answered 1 s)

/-- R108. -/
def Obligations.IdGtRespondsUnsignedGreater : Prop :=
  ∀ (a b c : Word) (s : State),
    decode ⟨0x33, a, b, c⟩ = .ok (.idGt a b) ∧
    exec (.idGt a b) s = .next (answered (if b.toNat < a.toNat then 1 else 0) s) ∧
    exec (.idGt a a) s = .next (answered 0 s) ∧
    exec (.idGt 0x800000000000 0x7FFFFFFFFFFF) s = .next (answered 1 s)

/-- R109. -/
def Obligations.IdLeRespondsUnsignedLessOrEqual : Prop :=
  ∀ (a b c : Word) (s : State),
    decode ⟨0x34, a, b, c⟩ = .ok (.idLe a b) ∧
    exec (.idLe a b) s = .next (answered (if ¬ b.toNat < a.toNat then 1 else 0) s) ∧
    exec (.idLe a a) s = .next (answered 1 s) ∧
    exec (.idLe 0x000100000204 0x000100000203) s = .next (answered 0 s)

/-- R110. -/
def Obligations.IdGeRespondsUnsignedGreaterOrEqual : Prop :=
  ∀ (a b c : Word) (s : State),
    decode ⟨0x35, a, b, c⟩ = .ok (.idGe a b) ∧
    exec (.idGe a b) s = .next (answered (if ¬ a.toNat < b.toNat then 1 else 0) s) ∧
    exec (.idGe a a) s = .next (answered 1 s) ∧
    exec (.idGe 0x000100000203 0x000100000204) s = .next (answered 0 s)

/-- What R112 derives, both ways: the accessors take apart what ID_MAKE packs (every argument at its field's low bits), and
ID_MAKE puts together what the accessors take apart. The words are those of the model's responses. -/
def Obligations.IdentifierRoundTrip : Prop :=
  ∀ (m : Rom) (a b c id : Word),
    (a.toNat < 2 ^ 16 → b.toNat < 2 ^ 24 → c.toNat < 2 ^ 8 →
      responseOf m (.idTile (responseOf m (.idMake a b c))) = a ∧
      responseOf m (.idPart (responseOf m (.idMake a b c))) = b ∧
      responseOf m (.idLocal (responseOf m (.idMake a b c))) = c) ∧
    responseOf m (.idMake (responseOf m (.idTile id)) (responseOf m (.idPart id)) (responseOf m (.idLocal id))) = id

/-- What R112 derives: exactly one of less, equal and greater answers 1, and the others 0. -/
def Obligations.IdentifierOrderTrichotomy : Prop :=
  ∀ (m : Rom) (p q : Word),
    (responseOf m (.idLt p q) = 1 ∧ responseOf m (.idEq p q) = 0 ∧ responseOf m (.idGt p q) = 0) ∨
    (responseOf m (.idLt p q) = 0 ∧ responseOf m (.idEq p q) = 1 ∧ responseOf m (.idGt p q) = 0) ∨
    (responseOf m (.idLt p q) = 0 ∧ responseOf m (.idEq p q) = 0 ∧ responseOf m (.idGt p q) = 1)

/-- R104, as the source words it and as R112 derives it: less-than is the lexicographic order of tile, partition and local
index, each unsigned. -/
def Obligations.IdentifierOrderIsLexicographic : Prop :=
  ∀ (m : Rom) (p q : Word),
    responseOf m (.idLt p q) = 1 ↔
      (tileId p).toNat < (tileId q).toNat ∨
      ((tileId p).toNat = (tileId q).toNat ∧
        ((partitionId p).toNat < (partitionId q).toNat ∨
          ((partitionId p).toNat = (partitionId q).toNat ∧ (localIndex p).toNat < (localIndex q).toNat)))

/-- R58, the packed layouts: source in bits 95:48, destination in bits 47:0; every pattern is a record. -/
def Obligations.RecordLayoutsRoundTrip : Prop :=
  ∀ (k : Connection) (u : PendingUpdate) (w : BitVec 96) (v : Word),
    packConnection k = k.src ++ k.dst ∧
    (packConnection k).extractLsb' 48 48 = k.src ∧ (packConnection k).extractLsb' 0 48 = k.dst ∧
    packPendingUpdate u = u.dst ∧
    unpackConnection (packConnection k) = k ∧ packConnection (unpackConnection w) = w ∧
    unpackPendingUpdate (packPendingUpdate u) = u ∧ packPendingUpdate (unpackPendingUpdate v) = v

/-! ### Encoding -/

/-- R50, the request format: where each field lies, and that word and fields determine each other. -/
def Obligations.RequestFieldsOfWord : Prop :=
  ∀ (q : Request) (w : RequestWord),
    q.toWord.extractLsb' 144 8 = q.op ∧ q.toWord.extractLsb' 96 48 = q.a ∧
    q.toWord.extractLsb' 48 48 = q.b ∧ q.toWord.extractLsb' 0 48 = q.c ∧
    Request.ofWord q.toWord = q ∧ (Request.ofWord w).toWord = w

/-- Every instruction, its operands anything, is read back from the word it is encoded to. -/
def Obligations.DecodeOfEncodedInstruction : Prop :=
  ∀ i : Instr, decodeWord (encodeWord i) = .ok i

/-- The other way: a word that decodes to an instruction is that instruction's encoding, but for the fields the operation does
not read, which the encoder writes as zero (R53, R60). -/
def Obligations.EncodeOfDecodedWord : Prop :=
  ∀ (w : RequestWord) (i : Instr), decodeWord w = .ok i →
    ∃ o : Op, o.code = w.extractLsb' 144 8 ∧
      encodeWord i =
        w.extractLsb' 144 8 ++ w.extractLsb' 96 48 ++
          (if o.readsB then w.extractLsb' 48 48 else 0) ++ (if o.readsC then w.extractLsb' 0 48 else 0)

/-- R52, the op table, with the operands each row reads; every other op value is refused, whatever the other fields hold. -/
def Obligations.DecoderFollowsOpTable : Prop :=
  ∀ a b c : Word,
    decode ⟨0x01, a, b, c⟩ = .ok (.fxAdd a b) ∧ decode ⟨0x02, a, b, c⟩ = .ok (.fxSub a b) ∧
    decode ⟨0x03, a, b, c⟩ = .ok (.fxMul a b) ∧ decode ⟨0x10, a, b, c⟩ = .ok (.tanh a) ∧
    decode ⟨0x11, a, b, c⟩ = .ok (.sigmoid a) ∧ decode ⟨0x20, a, b, c⟩ = .ok (.idMake a b c) ∧
    decode ⟨0x21, a, b, c⟩ = .ok (.idTile a) ∧ decode ⟨0x22, a, b, c⟩ = .ok (.idPart a) ∧
    decode ⟨0x23, a, b, c⟩ = .ok (.idLocal a) ∧ decode ⟨0x30, a, b, c⟩ = .ok (.idEq a b) ∧
    decode ⟨0x31, a, b, c⟩ = .ok (.idNe a b) ∧ decode ⟨0x32, a, b, c⟩ = .ok (.idLt a b) ∧
    decode ⟨0x33, a, b, c⟩ = .ok (.idGt a b) ∧ decode ⟨0x34, a, b, c⟩ = .ok (.idLe a b) ∧
    decode ⟨0x35, a, b, c⟩ = .ok (.idGe a b) ∧
    ∀ op : BitVec 8,
      op ∉ [0x01, 0x02, 0x03, 0x10, 0x11, 0x20, 0x21, 0x22, 0x23, 0x30, 0x31, 0x32, 0x33, 0x34, 0x35] →
      decode ⟨op, a, b, c⟩ = .error (.reservedOp op)

/-- R52 and R54 together: a word is refused, by name, exactly when its op is one of the values R54 lists. -/
def Obligations.DecoderRefusesExactlyReservedOps : Prop :=
  ∀ w : RequestWord,
    (decodeWord w = .error (.reservedOp (w.extractLsb' 144 8)) ↔
      ((w.extractLsb' 144 8).toNat = 0x00 ∨
       (0x04 ≤ (w.extractLsb' 144 8).toNat ∧ (w.extractLsb' 144 8).toNat ≤ 0x0F) ∨
       (0x12 ≤ (w.extractLsb' 144 8).toNat ∧ (w.extractLsb' 144 8).toNat ≤ 0x1F) ∨
       (0x24 ≤ (w.extractLsb' 144 8).toNat ∧ (w.extractLsb' 144 8).toNat ≤ 0x2F) ∨
       (0x36 ≤ (w.extractLsb' 144 8).toNat ∧ (w.extractLsb' 144 8).toNat ≤ 0xFF))) ∧
    ((∃ i, decodeWord w = .ok i) ↔ reservedOp (w.extractLsb' 144 8) = false)

/-- R53: two requests with the same op that agree on the fields the op reads (R52 column "reads") get the same response, and
neither has to have zeros anywhere. -/
def Obligations.UnreadFieldsDoNotMatter : Prop :=
  ∀ (m : Rom) (q p : Request), q.op = p.op →
    ((q.op ∈ [0x10, 0x11, 0x21, 0x22, 0x23] → q.a = p.a → answer m q = answer m p) ∧
     (q.op ∈ [0x01, 0x02, 0x03, 0x30, 0x31, 0x32, 0x33, 0x34, 0x35] → q.a = p.a → q.b = p.b →
       answer m q = answer m p))

/-- R60, characters aside: a line that lists the operands an instruction reads, as hex words, stands for the instruction's
encoding. The two other clauses are the model's choice in part (log 13): that of several responses bound to one name the
latest counts (R60 has a name stand for an earlier response and does not speak of a name bound twice), and that the real
number of a literal is given as a fraction n/d (R60 gives the floor of the number times 2^16, wrapped). -/
def Obligations.AssembledLineIsEncoding : Prop :=
  (∀ (bound : List (String × Word)) (i : Instr), assembleLine bound (lineOf i) = some (encode i)) ∧
  (∀ (bound : List (String × Word)) (x : String) (v : Word), operandValue ((x, v) :: bound) (.name x) = some v) ∧
  (∀ (bound : List (String × Word)) (n : Int) (d : Nat), 0 < d →
    operandValue bound (.fxLit n d) = some (BitVec.ofInt 48 ⌊((n : Rat) / (d : Rat)) * 2 ^ 16⌋))

/-- Words written out from R50 and R52 (the programs P1 to P3 of 95_test_vectors.md), one and more of each family. -/
def Obligations.SampleWordsDecode : Prop :=
  decodeWord 0x017FFFFFFF0000000000010000000000000000 = .ok (.fxAdd 0x7FFFFFFF0000 0x000000010000) ∧
  decodeWord 0x03800000000000FFFFFFFF0000000000000000 = .ok (.fxMul 0x800000000000 0xFFFFFFFF0000) ∧
  decodeWord 0x10000000008000000000000000000000000000 = .ok (.tanh 0x000000008000) ∧
  decodeWord 0x11FFFFFFFC0000000000000000000000000000 = .ok (.sigmoid 0xFFFFFFFC0000) ∧
  decodeWord 0x2000000001FFFF0000010000020000000001FF =
    .ok (.idMake 0x00000001FFFF 0x000001000002 0x0000000001FF) ∧
  decodeWord 0x22000100000203000000000000000000000000 = .ok (.idPart 0x000100000203) ∧
  decodeWord 0x35000100000203000100000204000000000000 = .ok (.idGe 0x000100000203 0x000100000204) ∧
  decodeWord 0x00000000000000000000000000000000000000 = .error (.reservedOp 0x00)

/-! ### The machine -/

/-- R27: the default words of the four saturation constants, as the floors of the decimals times 2^16 and as hex words. -/
def Obligations.SaturationConstantsAreFlooredDecimals : Prop :=
  State.reset.rom.tanhSatPos = BitVec.ofInt 48 (Int.fdiv (96403 * 2 ^ 16) 100000) ∧
  State.reset.rom.tanhSatNeg = BitVec.ofInt 48 (Int.fdiv (-96403 * 2 ^ 16) 100000) ∧
  State.reset.rom.sigSatHi = BitVec.ofInt 48 (Int.fdiv (9820138 * 2 ^ 16) 10000000) ∧
  State.reset.rom.sigSatLo = BitVec.ofInt 48 (Int.fdiv (179862 * 2 ^ 16) 10000000) ∧
  State.reset.rom.tanhSatPos.toInt = 63178 ∧ State.reset.rom.tanhSatNeg.toInt = -63179 ∧
  State.reset.rom.sigSatHi.toInt = 64357 ∧ State.reset.rom.sigSatLo.toInt = 1178

/-- The state after reset: nothing in flight and the tables as built (R32). That no refusal is marked, and the values of the
model's own fields, are the model's choice (logs 1, 4, 5); the port's value is free (log 3) and not stated. -/
def Obligations.ResetStateIsEmpty : Prop :=
  State.reset.inflight = [] ∧
  (∀ k : Fin 32, State.reset.rom.tanhLut.get k = Config.tanhLut k ∧ State.reset.rom.sigLut.get k = Config.sigLut k) ∧
  State.reset.refused = false ∧ State.reset.rValid = false ∧ State.reset.responses = [] ∧ State.reset.schedule = []

/-- A step runs the decoded instruction: at the unit's turn, the request at the head of the queue, when it decodes to i, is
taken from the queue and i is run. What the step adds around exec is that and the turn. -/
def Obligations.StepRunsDecodedRequest : Prop :=
  ∀ (s : State) (q : Request) (rest : List Request) (i : Instr),
    nextTurn s = .unit → s.inflight = q :: rest → decode q = .ok i →
    step s = exec i { s with inflight := rest, schedule := s.schedule.tail }

/-- The request placed by withFetchWord is the one the very next step runs, in every state. -/
def Obligations.PlacedWordRunsNext : Prop :=
  ∀ (s : State) (w : Nat) (i : Instr),
    decodeTableWord 152 w = some i → step (s.withFetchWord 152 w) = exec i s

/-- R138: the three transitions. Host issue appends at any time; the unit's move, enabled when something is in flight, takes
the head and emits f(req), or with a reserved op marks the refusal; reset empties the queue and keeps the read-only store.
The model's own: each transition uses up its turn of the schedule (log 1), and a reset keeps the responses already given and
the refusal mark (logs 2, 5). After a reset the port's value is free (log 3) and not stated. -/
def Obligations.StepIsOneOfTheTransitions : Prop :=
  ∀ s : State,
    (∀ q, nextTurn s = .issue q →
      step s = .next { s with inflight := s.inflight ++ [q], schedule := s.schedule.tail }) ∧
    (∀ q rest, nextTurn s = .unit → s.inflight = q :: rest → reservedOp q.op = true →
      step s = .next { s with inflight := rest, refused := true, schedule := s.schedule.tail }) ∧
    (∀ q rest, nextTurn s = .unit → s.inflight = q :: rest → reservedOp q.op = false →
      ∃ v, answer s.rom q = some v ∧
        step s = .next (answered v { s with inflight := rest, schedule := s.schedule.tail })) ∧
    (nextTurn s = .reset →
      ∃ t, step s = .next t ∧ t.inflight = [] ∧ t.rom = s.rom ∧ t.responses = s.responses ∧
        t.refused = s.refused ∧ t.schedule = s.schedule.tail)

/-- The unit's turn with nothing in flight: its move is not enabled (R138), and the model's step then only uses up the turn
(log 1). -/
def Obligations.IdleTurnChangesNothing : Prop :=
  ∀ s : State, nextTurn s = .unit → s.inflight = [] →
    step s = .next { s with schedule := s.schedule.tail }

/-- R135: the reset event. The queue is emptied, what was in it gets no response, tables and constants keep their values,
and the unit accepts a request at once. That no reset clears the refusal mark is R122's and C5's. The model's own: the
responses already given stay (log 2), the port is not readable (log 4, for R32's "must not read it"), and the reset turn is
used up (log 1). -/
def Obligations.ResetEventDiscardsInflight : Prop :=
  ∀ s : State, nextTurn s = .reset →
    ∃ t, step s = .next t ∧ t.inflight = [] ∧ t.responses = s.responses ∧ t.rom = s.rom ∧
      t.refused = s.refused ∧ t.readPort = none ∧ t.schedule = s.schedule.tail ∧
      (∀ q, nextTurn t = .issue q → ∃ u, step t = .next u ∧ u.inflight = [q])

/-- R122: a request with a reserved op gets no response and sets the refusal mark, and neither a later request nor a reset,
nor any run of them, clears it. -/
def Obligations.RefusalMarkIsSticky : Prop :=
  (∀ (s : State) (q : Request) (rest : List Request),
    nextTurn s = .unit → s.inflight = q :: rest → reservedOp q.op = true →
    ∃ t, step s = .next t ∧ t.refused = true ∧ t.responses = s.responses ∧ t.r = s.r ∧ t.rValid = s.rValid) ∧
  (∀ (n : Nat) (s t : State), s.refused = true → Sys2Proof.core.run n s = .next t → t.refused = true)

/-- R120: no operation fails: every instruction answers a response word and touches no error indication, for every operand. That no
run of steps stops, from any state, goes further than R120: it rests on the model's reading of a reserved op as a next
state (log 5, from R122 and R138), on its type of faults (log 14), and on its choice that an idle turn changes nothing (log 1). -/
def Obligations.NoOperationEverFails : Prop :=
  (∀ (i : Instr) (s : State), ∃ v, exec i s = .next (answered v s)) ∧
  (∀ (n : Nat) (s : State), ∃ t, Sys2Proof.core.run n s = .next t)

/-- R28: nothing writes a table entry or a saturation constant, in any number of steps. -/
def Obligations.ReadOnlyStoreNeverChanges : Prop :=
  ∀ (n : Nat) (s t : State), Sys2Proof.core.run n s = .next t → t.rom = s.rom

/-- What every instruction leaves unchanged: the queue, the read-only store, the refusal mark, the reset count and the schedule;
and of the responses given, all earlier ones. -/
def Obligations.InstructionFrame : Prop :=
  ∀ (i : Instr) (s t : State), exec i s = .next t →
    t.inflight = s.inflight ∧ t.rom = s.rom ∧ t.refused = s.refused ∧ t.resets = s.resets ∧
    t.schedule = s.schedule ∧ t.rValid = true ∧ t.responses = s.responses ++ [t.r]

/-- R44: the response depends on the request's op and operands and the read-only store only: two states that share the request
at the head of the queue and the store, and differ in everything else, append the same response. -/
def Obligations.ResponseDependsOnRequestAndStoreOnly : Prop :=
  ∀ (s s' : State) (q : Request) (rest rest' : List Request),
    nextTurn s = .unit → nextTurn s' = .unit → s.inflight = q :: rest → s'.inflight = q :: rest' →
    s.rom = s'.rom → reservedOp q.op = false →
    ∃ t t' v, step s = .next t ∧ step s' = .next t' ∧
      t.responses = s.responses ++ [v] ∧ t'.responses = s'.responses ++ [v] ∧ t.r = v ∧ t'.r = v

/-- R137: exactly one response per assigned request, in issue order: a queue of assigned requests, the unit moving, is answered
one for one. That the unit moves in every step once the schedule is empty is the model's choice (log 1). -/
def Obligations.ResponsesInIssueOrder : Prop :=
  ∀ s : State, s.schedule = [] → (∀ q ∈ s.inflight, reservedOp q.op = false) →
    ∃ (t : State) (vs : List Word),
      Sys2Proof.core.run s.inflight.length s = .next t ∧ t.inflight = [] ∧
      vs.length = s.inflight.length ∧ t.responses = s.responses ++ vs ∧
      (∀ (k : Nat) (q : Request), s.inflight[k]? = some q → answer s.rom q = vs[k]?)

/-- An invariant of every reset-free run, whatever the interleaving of issue and response (R44, R137): the responses given,
followed by the answers to what is in flight and to what will still be issued, are the same list before and after a step. -/
def Obligations.StreamOfResponsesIsConserved : Prop :=
  ∀ s t : State, resetFree s.schedule = true → step s = .next t →
    owed t = owed s ∧ resetFree t.schedule = true

/-- Every reset-free schedule runs to its end, and there the responses are exactly the answers to the requests in issue order,
with nothing left in flight, whatever the interleaving (R44, R137, R139). That every request is answered, within a bound, is
no rule of the spec, which makes eventual answering a fairness assumption (R138, R142): it rests on the model's choice that
the unit moves when the schedule is used up (log 1). -/
def Obligations.ResetFreeRunAnswersEveryRequest : Prop :=
  ∀ s : State, resetFree s.schedule = true →
    ∃ t, Sys2Proof.core.run (s.inflight.length + 2 * s.schedule.length) s = .next t ∧
      t.inflight = [] ∧ t.schedule = [] ∧
      t.responses = s.responses ++ answers s.rom (s.inflight ++ issued s.schedule)

/-- R139's clean end, for the same runs: it comes exactly when no refusal was marked before and every request in flight or
issued later has an assigned op. That the run is over within the bound rests on the model's choice that the unit moves when the
schedule is used up (log 1), where the spec has a fairness assumption (R142). -/
def Obligations.CleanEndIffNoReservedOp : Prop :=
  ∀ s : State, resetFree s.schedule = true →
    ∃ t, Sys2Proof.core.run (s.inflight.length + 2 * s.schedule.length) s = .next t ∧ t.over = true ∧
      (t.endedCleanly = true ↔
        s.refused = false ∧ ∀ q ∈ s.inflight ++ issued s.schedule, reservedOp q.op = false)

/-- An invariant of every step: with a host that keeps its duty (R143) and no refusal marked, both stay so, resets or not. -/
def Obligations.ObedientHostIsNeverRefused : Prop :=
  ∀ s t : State, s.hostObeys = true → s.refused = false → step s = .next t →
    t.hostObeys = true ∧ t.refused = false

/-- The invariant of `ObedientHostIsNeverRefused` holds at reset. -/
def Obligations.ResetIsObedientAndUnrefused : Prop :=
  State.reset.hostObeys = true ∧ State.reset.refused = false

/-- An invariant of every step: where a response was given since the last reset, the port shows the last one given (R32;
`rValid` and `responses` are the model's record, log 4). -/
def Obligations.PortShowsLastResponse : Prop :=
  ∀ s t : State, s.portCurrent → step s = .next t → t.portCurrent

/-- The invariant of `PortShowsLastResponse` holds at reset, where the port may not be read yet (R143). -/
def Obligations.ResetPortIsNotReadable : Prop :=
  State.reset.portCurrent ∧ State.reset.readPort = none
end

