-- ==== Sys2Proof/Laws/Encoding.lean ====
section
/-! SUPPORT. The small lemmas of the encoding's definitions: field extraction and packing are inverse, and the op table
finds an operation by its own code and by no other. -/

namespace Sys2Proof

/-- A field that lies above the low part of a concatenation is a field of its high part. -/
theorem extract_append_high {m n : Nat} (x : BitVec m) (y : BitVec n) (start k : Nat) (h : n ≤ start) :
    (x ++ y).extractLsb' start k = x.extractLsb' (start - n) k := by
  apply BitVec.eq_of_getLsbD_eq
  intro i hi
  rw [BitVec.getLsbD_extractLsb', BitVec.getLsbD_extractLsb', BitVec.getLsbD_append, if_neg (by omega),
    show start + i - n = start - n + i by omega]

/-- The low part of a concatenation. -/
theorem extract_append_low {m n : Nat} (x : BitVec m) (y : BitVec n) : (x ++ y).extractLsb' 0 n = y := by
  apply BitVec.eq_of_getLsbD_eq
  intro i hi
  rw [BitVec.getLsbD_extractLsb', BitVec.getLsbD_append, if_pos (by omega)]
  simp [hi]

/-- Taking the fields out of the canonical spelling gives the request back (R50). -/
theorem ofWord_toWord (q : Request) : Request.ofWord q.toWord = q := by
  have hop : (q.op ++ q.a ++ q.b ++ q.c).extractLsb' 144 8 = q.op := by
    rw [extract_append_high _ _ _ _ (by omega), extract_append_high _ _ _ _ (by omega),
      extract_append_high _ _ _ _ (by omega)]
    exact BitVec.extractLsb'_eq_self
  have ha : (q.op ++ q.a ++ q.b ++ q.c).extractLsb' 96 48 = q.a := by
    rw [extract_append_high _ _ _ _ (by omega), extract_append_high _ _ _ _ (by omega)]
    exact extract_append_low _ _
  have hb : (q.op ++ q.a ++ q.b ++ q.c).extractLsb' 48 48 = q.b := by
    rw [extract_append_high _ _ _ _ (by omega)]
    exact extract_append_low _ _
  have hc : (q.op ++ q.a ++ q.b ++ q.c).extractLsb' 0 48 = q.c := extract_append_low _ _
  cases q
  simp only [Request.ofWord, Request.toWord, Request.mk.injEq]
  exact ⟨hop, ha, hb, hc⟩

/-- A decoded op value is the code of the operation found. -/
theorem code_of_ofCode {c : BitVec 8} {o : Op} (h : Op.ofCode c = some o) : o.code = c := by
  simpa using List.find?_some h

/-- The codes of R52 are pairwise different: each finds its own operation. -/
theorem ofCode_code (o : Op) : Op.ofCode o.code = some o := by cases o <;> rfl

/-- What a successful decoding says of the request. -/
theorem decode_ok_iff (q : Request) (i : Instr) :
    decode q = .ok i ↔ ∃ o : Op, o.code = q.op ∧ i = o.withFields q.a q.b q.c := by
  constructor
  · intro h
    unfold decode at h
    split at h
    · next o ho => exact ⟨o, code_of_ofCode ho, by simpa using h.symm⟩
    · cases h
  · rintro ⟨o, ho, rfl⟩
    simp [decode, ← ho, ofCode_code]

/-- What a refused decoding says of the request. -/
theorem decode_error_iff (q : Request) (e : DecodeError) :
    decode q = .error e ↔ Op.ofCode q.op = none ∧ e = .reservedOp q.op := by
  unfold decode
  cases Op.ofCode q.op <;> simp [eq_comm]

end Sys2Proof
end

