-- ==== Sys2Proof/Laws/State.lean ====
section
/-! SUPPORT. What each named operation leaves in each field of the state: one lemma a field an operation, true by
definition, so that no proof unfolds a record update. -/

namespace Sys2Proof.Machine

@[simp] theorem respond_inflight (v : Word) (s : State) : (respond v s).inflight = s.inflight := rfl
@[simp] theorem respond_rom (v : Word) (s : State) : (respond v s).rom = s.rom := rfl
@[simp] theorem respond_r (v : Word) (s : State) : (respond v s).r = v := rfl
@[simp] theorem respond_rValid (v : Word) (s : State) : (respond v s).rValid = true := rfl
@[simp] theorem respond_responses (v : Word) (s : State) : (respond v s).responses = s.responses ++ [v] := rfl
@[simp] theorem respond_refused (v : Word) (s : State) : (respond v s).refused = s.refused := rfl
@[simp] theorem respond_resets (v : Word) (s : State) : (respond v s).resets = s.resets := rfl
@[simp] theorem respond_schedule (v : Word) (s : State) : (respond v s).schedule = s.schedule := rfl

@[simp] theorem issue_inflight (q : Request) (s : State) : (issue q s).inflight = s.inflight ++ [q] := rfl
@[simp] theorem issue_rom (q : Request) (s : State) : (issue q s).rom = s.rom := rfl
@[simp] theorem issue_r (q : Request) (s : State) : (issue q s).r = s.r := rfl
@[simp] theorem issue_rValid (q : Request) (s : State) : (issue q s).rValid = s.rValid := rfl
@[simp] theorem issue_responses (q : Request) (s : State) : (issue q s).responses = s.responses := rfl
@[simp] theorem issue_refused (q : Request) (s : State) : (issue q s).refused = s.refused := rfl
@[simp] theorem issue_resets (q : Request) (s : State) : (issue q s).resets = s.resets := rfl
@[simp] theorem issue_schedule (q : Request) (s : State) : (issue q s).schedule = s.schedule := rfl

@[simp] theorem dequeue_inflight (s : State) : (dequeue s).inflight = s.inflight.tail := rfl
@[simp] theorem dequeue_rom (s : State) : (dequeue s).rom = s.rom := rfl
@[simp] theorem dequeue_r (s : State) : (dequeue s).r = s.r := rfl
@[simp] theorem dequeue_rValid (s : State) : (dequeue s).rValid = s.rValid := rfl
@[simp] theorem dequeue_responses (s : State) : (dequeue s).responses = s.responses := rfl
@[simp] theorem dequeue_refused (s : State) : (dequeue s).refused = s.refused := rfl
@[simp] theorem dequeue_resets (s : State) : (dequeue s).resets = s.resets := rfl
@[simp] theorem dequeue_schedule (s : State) : (dequeue s).schedule = s.schedule := rfl

@[simp] theorem markRefused_inflight (s : State) : (markRefused s).inflight = s.inflight := rfl
@[simp] theorem markRefused_rom (s : State) : (markRefused s).rom = s.rom := rfl
@[simp] theorem markRefused_r (s : State) : (markRefused s).r = s.r := rfl
@[simp] theorem markRefused_rValid (s : State) : (markRefused s).rValid = s.rValid := rfl
@[simp] theorem markRefused_responses (s : State) : (markRefused s).responses = s.responses := rfl
@[simp] theorem markRefused_refused (s : State) : (markRefused s).refused = true := rfl
@[simp] theorem markRefused_resets (s : State) : (markRefused s).resets = s.resets := rfl
@[simp] theorem markRefused_schedule (s : State) : (markRefused s).schedule = s.schedule := rfl

@[simp] theorem unitReset_inflight (s : State) : (unitReset s).inflight = [] := rfl
@[simp] theorem unitReset_rom (s : State) : (unitReset s).rom = s.rom := rfl
@[simp] theorem unitReset_r (s : State) : (unitReset s).r = Config.portAfterReset (s.resets + 1) := rfl
@[simp] theorem unitReset_rValid (s : State) : (unitReset s).rValid = false := rfl
@[simp] theorem unitReset_responses (s : State) : (unitReset s).responses = s.responses := rfl
@[simp] theorem unitReset_refused (s : State) : (unitReset s).refused = s.refused := rfl
@[simp] theorem unitReset_resets (s : State) : (unitReset s).resets = s.resets + 1 := rfl
@[simp] theorem unitReset_schedule (s : State) : (unitReset s).schedule = s.schedule := rfl

@[simp] theorem endTurn_inflight (s : State) : (endTurn s).inflight = s.inflight := rfl
@[simp] theorem endTurn_rom (s : State) : (endTurn s).rom = s.rom := rfl
@[simp] theorem endTurn_r (s : State) : (endTurn s).r = s.r := rfl
@[simp] theorem endTurn_rValid (s : State) : (endTurn s).rValid = s.rValid := rfl
@[simp] theorem endTurn_responses (s : State) : (endTurn s).responses = s.responses := rfl
@[simp] theorem endTurn_refused (s : State) : (endTurn s).refused = s.refused := rfl
@[simp] theorem endTurn_resets (s : State) : (endTurn s).resets = s.resets := rfl
@[simp] theorem endTurn_schedule (s : State) : (endTurn s).schedule = s.schedule.tail := rfl

@[simp] theorem placeRequest_inflight (q : Request) (s : State) : (placeRequest q s).inflight = q :: s.inflight := rfl
@[simp] theorem placeRequest_rom (q : Request) (s : State) : (placeRequest q s).rom = s.rom := rfl
@[simp] theorem placeRequest_r (q : Request) (s : State) : (placeRequest q s).r = s.r := rfl
@[simp] theorem placeRequest_rValid (q : Request) (s : State) : (placeRequest q s).rValid = s.rValid := rfl
@[simp] theorem placeRequest_responses (q : Request) (s : State) : (placeRequest q s).responses = s.responses := rfl
@[simp] theorem placeRequest_refused (q : Request) (s : State) : (placeRequest q s).refused = s.refused := rfl
@[simp] theorem placeRequest_resets (q : Request) (s : State) : (placeRequest q s).resets = s.resets := rfl
@[simp] theorem placeRequest_schedule (q : Request) (s : State) : (placeRequest q s).schedule = .unit :: s.schedule := rfl

end Sys2Proof.Machine
end

