-- ==== Sys2Proof/Laws/Ops.lean ====
section
/-! SUPPORT. What each shared operation can do, said once: the table read, the overflow test, the meaning of every
instruction as one response, and a step as one of R138's transitions. -/

namespace Sys2Proof.Machine

/-- A selector word is the physical address of the entry its signed reading names (R25, R81). -/
theorem lutRead_toInt (t : Table) (rng : BitVec 5) : lutRead t rng.toInt = t.get rng.toFin := by
  simp [lutRead]

/-- The overflow test as R82 writes it. -/
theorem overflows_iff (x : Word) (L : Nat) :
    overflows x L = true ↔ ∃ i, L + 4 ≤ i ∧ i ≤ 46 ∧ x.getLsbD i ≠ x.getLsbD 47 := by
  simp only [overflows, List.any_eq_true, List.mem_range, Bool.and_eq_true, decide_eq_true_eq, bne_iff_ne]
  exact ⟨fun ⟨i, h, g, n⟩ => ⟨i, g, by omega, n⟩, fun ⟨i, g, h, n⟩ => ⟨i, by omega, g, n⟩⟩

/-- Every instruction answers with its response word and changes nothing else. -/
theorem exec_eq_respond (i : Instr) (s : State) : exec i s = .next (respond (responseOf s.rom i) s) := by
  cases i <;> rfl

/-- The unit's move, by what is at the head of the queue. -/
theorem unitMove_cases (s : State) :
    (s.inflight = [] ∧ unitMove s = .next s) ∨
    (∃ q rest i, s.inflight = q :: rest ∧ decode q = .ok i ∧
      unitMove s = .next (respond (responseOf s.rom i) (dequeue s))) ∨
    (∃ q rest e, s.inflight = q :: rest ∧ decode q = .error e ∧
      unitMove s = .next (markRefused (dequeue s))) := by
  cases h : s.inflight with
  | nil => exact .inl ⟨rfl, by simp [unitMove, h]⟩
  | cons q rest =>
    cases hd : decode q with
    | ok i => exact .inr (.inl ⟨q, rest, i, rfl, hd, by simp [unitMove, h, hd, exec_eq_respond]⟩)
    | error e => exact .inr (.inr ⟨q, rest, e, rfl, hd, by simp [unitMove, h, hd]⟩)

/-- A step, by whose turn it is. -/
theorem step_cases (s : State) :
    (∃ q, nextTurn s = .issue q ∧ step s = .next (issue q (endTurn s))) ∨
    (nextTurn s = .reset ∧ step s = .next (unitReset (endTurn s))) ∨
    (nextTurn s = .unit ∧ step s = unitMove (endTurn s)) := by
  cases h : nextTurn s <;> simp [step, h]

end Sys2Proof.Machine
end

