-- ==== Sys2Proof/Laws/PerInstr.lean ====
section
/-! SUPPORT. Statements made per instruction, one lemma a constructor. The family EncodesAssigned: the encoder writes only
requests a host may issue (R54, R143). -/

namespace Sys2Proof.Laws.EncodesAssigned

/-- The encoding of an instruction is a request with an assigned op. -/
def Statement (i : Instr) : Prop := (encode i).wellFormed = true

theorem fxAdd (a b : Word) : Statement (.fxAdd a b) := rfl
theorem fxSub (a b : Word) : Statement (.fxSub a b) := rfl
theorem fxMul (a b : Word) : Statement (.fxMul a b) := rfl
theorem tanh (a : Word) : Statement (.tanh a) := rfl
theorem sigmoid (a : Word) : Statement (.sigmoid a) := rfl
theorem idMake (a b c : Word) : Statement (.idMake a b c) := rfl
theorem idTile (a : Word) : Statement (.idTile a) := rfl
theorem idPart (a : Word) : Statement (.idPart a) := rfl
theorem idLocal (a : Word) : Statement (.idLocal a) := rfl
theorem idEq (a b : Word) : Statement (.idEq a b) := rfl
theorem idNe (a b : Word) : Statement (.idNe a b) := rfl
theorem idLt (a b : Word) : Statement (.idLt a b) := rfl
theorem idGt (a b : Word) : Statement (.idGt a b) := rfl
theorem idLe (a b : Word) : Statement (.idLe a b) := rfl
theorem idGe (a b : Word) : Statement (.idGe a b) := rfl

end Sys2Proof.Laws.EncodesAssigned
end

