-- ==== Sys2Proof/Tests/Slice0.lean ====
section
/-! SUPPORT. The model's own tests. Expected results are those of spec/95_test_vectors.md and of the rules' own examples; in-domain
activation vectors use its illustrative entries ILL, which are no hardware data. -/

namespace Sys2Proof.Tests

open Sys2Proof Sys2Proof.Machine

/-! ### Helpers -/

/-- A table with one entry at address k and zeros elsewhere. -/
def tableWith (k : Nat) (e : LutEntry) : Table := Vector.ofFn (fun j : Fin 32 => if j.val = k then e else ⟨0, 0⟩)

/-- A small read-only store with the default saturation words. -/
def romWith (t g : Table) : Rom := ⟨t, g, 0x00000000F6CA, 0xFFFFFFFF0935, 0x00000000FB65, 0x00000000049A⟩

/-- The store with tables of zeros. -/
def zeroRom : Rom := romWith (tableWith 0 ⟨0, 0⟩) (tableWith 0 ⟨0, 0⟩)

/-- An idle unit over a store. -/
def idleWith (m : Rom) : State := ⟨[], m, 0, false, [], false, 0, []⟩

/-- An idle unit. -/
def idle : State := idleWith zeroRom

/-- A unit with a queue, and a schedule. -/
def busy (qs : List Request) (ts : List Turn) : State := { idle with inflight := qs, schedule := ts }

/-- The port after an outcome. -/
def port : Host.Outcome State Fault Refusal → Option Word
  | .next t => t.readPort
  | .fault _ => none
  | .refused _ => none

/-- A field of the next state of an outcome. -/
def after {α : Type} (f : State → α) : Host.Outcome State Fault Refusal → Option α
  | .next t => some (f t)
  | .fault _ => none
  | .refused _ => none

/-- An FX_ADD request and a request with a reserved op. -/
def addReq : Request := ⟨0x01, 1, 2, 3⟩
def badReq : Request := ⟨0x00, 0, 0, 0⟩

/-! ### WellFormed: each check refuses an ill-formed term -/

theorem test_wf_request : badReq.wellFormed = false ∧ addReq.wellFormed = true := by decide
theorem test_wf_turn : (Turn.issue badReq).wellFormed = false ∧ (Turn.issue addReq).wellFormed = true := by decide
theorem test_wf_schedule :
    scheduleWellFormed [.issue addReq, .unit, .issue badReq] = false ∧
    scheduleWellFormed [.issue addReq, .reset, .unit] = true := by decide
/-- R54: 241 reserved values. -/
theorem test_reserved_count : ((List.range 256).filter (fun n => reservedOp (BitVec.ofNat 8 n))).length = 241 := by decide +kernel

/-! ### Decoding: words written out from R50 and R52 (encodings of programs P1 to P4) -/

theorem test_decode_fxAdd : decodeWord 0x01000000004000000000002000000000000000 = .ok (.fxAdd 0x4000 0x2000) := by decide
theorem test_decode_fxSub : decodeWord 0x02800000000000000000010000000000000000 = .ok (.fxSub 0x800000000000 0x10000) := by decide
theorem test_decode_fxMul : decodeWord 0x03000000030000000000005555000000000000 = .ok (.fxMul 0x30000 0x5555) := by decide
theorem test_decode_tanh : decodeWord 0x10FFFFFFCE0000000000000000000000000000 = .ok (.tanh 0xFFFFFFCE0000) := by decide
theorem test_decode_sigmoid : decodeWord 0x11000000320000000000000000000000000000 = .ok (.sigmoid 0x320000) := by decide
theorem test_decode_idMake : decodeWord 0x20000000000001000000000002000000000003 = .ok (.idMake 1 2 3) := by decide
theorem test_decode_idTile : decodeWord 0x21FFFF000002FF000000000000000000000000 = .ok (.idTile 0xFFFF000002FF) := by decide
theorem test_decode_idPart : decodeWord 0x22000100000203000000000000000000000000 = .ok (.idPart 0x000100000203) := by decide
theorem test_decode_idLocal : decodeWord 0x23000100000203000000000000000000000000 = .ok (.idLocal 0x000100000203) := by decide
theorem test_decode_idEq : decodeWord 0x30000100000203000100000204000000000000 = .ok (.idEq 0x000100000203 0x000100000204) := by decide
theorem test_decode_idNe : decodeWord 0x31000100000203000100000204000000000000 = .ok (.idNe 0x000100000203 0x000100000204) := by decide
theorem test_decode_idLt : decodeWord 0x32FFFF000002FF000100000203000000000000 = .ok (.idLt 0xFFFF000002FF 0x000100000203) := by decide
theorem test_decode_idGt : decodeWord 0x33000100000203000100000204000000000000 = .ok (.idGt 0x000100000203 0x000100000204) := by decide
theorem test_decode_idLe : decodeWord 0x34000100000203000100000204000000000000 = .ok (.idLe 0x000100000203 0x000100000204) := by decide
theorem test_decode_idGe : decodeWord 0x35000100000203000100000204000000000000 = .ok (.idGe 0x000100000203 0x000100000204) := by decide
/-- P4 line 4: op 0x00 is refused by name. -/
theorem test_decode_reserved : decodeWord 0x00000000000000000000000000000000000000 = .error (.reservedOp 0x00) := by decide
/-- The host's numbering: the table's match of TANH, and a reserved value. -/
theorem test_table_word :
    decodeTableWord 152 0x10000000000000000000000000000000000000 = some (.tanh 0) ∧
    decodeTableWord 152 0x04000000000000000000000000000000000000 = none := by decide
/-- R60: fx(-1.0), fx(0.5), and a literal that is no multiple of 2^-16 is floored. -/
theorem test_fx : fx (-1) 1 = 0xFFFFFFFF0000 ∧ fx 1 2 = 0x8000 ∧ fx (-1) 3 = 0xFFFFFFFFAAAA := by decide

/-- P1 line 2, `t2 = FX_ADD t1, 0x0000_0000_2000`, after t1 was received. -/
theorem test_assemble_named :
    (assembleLine [("t1", 0x4000)] ⟨some "t2", .op .fxAdd, [.name "t1", .hex 0x2000]⟩).map Request.toWord =
      some 0x01000000004000000000002000000000000000 := by decide
/-- R60: a line lists only the operands the operation reads. -/
theorem test_assemble_count : assembleLine [] ⟨none, .op .tanh, [.fxLit 1 2, .hex 0]⟩ = none := by decide
/-- P2 line 4, `FX_NEG u1`. -/
theorem test_assemble_neg :
    (assembleLine [("u1", 0x800000000000)] ⟨none, .fxNeg, [.name "u1"]⟩).map Request.toWord =
      some 0x02000000000000800000000000000000000000 := by decide

/-! ### FXU vectors (95_test_vectors.md section 2) -/

theorem test_fxAdd_wraps : port (exec (.fxAdd 0x7FFFFFFFFFFF 0x000000000001) idle) = some 0x800000000000 := by decide
theorem test_fxAdd_signs : port (exec (.fxAdd 0xFFFFFFFF0000 0xFFFFFFFF0000) idle) = some 0xFFFFFFFE0000 := by decide
theorem test_fxSub_wraps : port (exec (.fxSub 0x7FFFFFFFFFFF 0xFFFFFFFFFFFF) idle) = some 0x800000000000 := by decide
theorem test_fxSub_order : port (exec (.fxSub 0x000000010000 0x000000018000) idle) = some 0xFFFFFFFF8000 := by decide
theorem test_fxMul_floors : port (exec (.fxMul 0x000000000001 0xFFFFFFFFFFFF) idle) = some 0xFFFFFFFFFFFF := by decide
theorem test_fxMul_window : port (exec (.fxMul 0x7FFFFFFFFFFF 0x7FFFFFFFFFFF) idle) = some 0xFFFF00000000 := by decide

/-! ### ACT vectors (95_test_vectors.md section 3) -/

/-- Program P1: k = 4, ILL[4] = (0x0400, 0x0100). -/
theorem test_tanh_segment :
    port (exec (.tanh 0x000000008000) (idleWith (romWith (tableWith 4 ⟨0x0400, 0x0100⟩) (tableWith 0 ⟨0, 0⟩)))) =
      some 0x000000006000 := by decide
/-- k = −16 at address 16, ILL[−16] = (0x0100, 0xF900). -/
theorem test_tanh_first_segment :
    port (exec (.tanh 0xFFFFFFFE0000) (idleWith (romWith (tableWith 16 ⟨0x0100, 0xF900⟩) (tableWith 0 ⟨0, 0⟩)))) =
      some 0xFFFFFFFEE000 := by decide
/-- k = −4 at address 28, ILL[−4] = (0x0200, 0xFD00). -/
theorem test_sigmoid_segment :
    port (exec (.sigmoid 0xFFFFFFFF0000) (idleWith (romWith (tableWith 0 ⟨0, 0⟩) (tableWith 28 ⟨0x0200, 0xFD00⟩)))) =
      some 0xFFFFFFFF6000 := by decide
/-- 0x8000_0001_FFFF has the window bits of an in-domain value and overflows negative. -/
theorem test_sigmoid_overflow : port (exec (.sigmoid 0x80000001FFFF) idle) = some 0x00000000049A := by decide
/-- Selector and overflow rows. -/
theorem test_selector :
    (selector 0xFFFFFFFFC000 tanhSelLo).toInt = -2 ∧ (selector 0xFFFFFFFDFFFF sigSelLo).toInt = -9 ∧
    overflows 0xFFFFFFFDFFFF tanhSelLo = true ∧ overflows 0xFFFFFFFDFFFF sigSelLo = false := by decide
/-- conv rows. -/
theorem test_conv : conv 0x7FFF = 0x0000000FFFE0 ∧ conv 0x8000 = 0xFFFFFFF00000 ∧ conv 0xFFFF = 0xFFFFFFFFFFE0 := by decide

/-! ### NID vectors (95_test_vectors.md section 4) -/

theorem test_idMake_truncates :
    port (exec (.idMake 0x00000001FFFF 0x000001000002 0x0000000001FF) idle) = some 0xFFFF000002FF := by decide
theorem test_idMake_places :
    port (exec (.idMake 0 0x000000ABCDEF 0x000000000012) idle) = some 0x0000ABCDEF12 := by decide
theorem test_idTile : port (exec (.idTile 0x800000000000) idle) = some 0x000000008000 := by decide
theorem test_idPart : port (exec (.idPart 0x0000ABCDEF12) idle) = some 0x000000ABCDEF := by decide
theorem test_idLocal : port (exec (.idLocal 0xFFFF000002FF) idle) = some 0x0000000000FF := by decide
theorem test_idEq : port (exec (.idEq 0x000100000203 0x000100000203) idle) = some 1 := by decide
theorem test_idNe : port (exec (.idNe 0x000100000203 0x000100000203) idle) = some 0 := by decide
theorem test_idLt : port (exec (.idLt 0x000100000300 0x0001000002FF) idle) = some 0 := by decide
theorem test_idGt : port (exec (.idGt 0x800000000000 0x7FFFFFFFFFFF) idle) = some 1 := by decide
theorem test_idLe : port (exec (.idLe 0x000100000203 0x000100000203) idle) = some 1 := by decide
theorem test_idGe : port (exec (.idGe 0x000000000000 0xFFFFFFFFFFFF) idle) = some 0 := by decide
/-- R58: src lies above dst. -/
theorem test_connection : packConnection ⟨1, 2⟩ = 0x000000000001000000000002 := by decide

/-! ### Steps -/

theorem test_step_issue : after (fun t => (t.inflight, t.schedule)) (step (busy [addReq] [.issue badReq, .unit])) =
    some ([addReq, badReq], [.unit]) := by decide
theorem test_step_unit : after (fun t => (t.inflight, t.responses)) (step (busy [addReq, badReq] [])) =
    some ([badReq], [3]) := by decide
theorem test_step_refuses : after (fun t => (t.inflight, t.responses, t.refused)) (step (busy [badReq] [])) =
    some ([], [], true) := by decide
theorem test_step_reset : after (fun t => (t.inflight, t.readPort, t.schedule)) (step (busy [addReq] [.reset])) =
    some ([], none, []) := by decide
/-- From State.reset the placed request is the very next thing run. -/
theorem test_placed_word : after (fun t => t.responses)
    (step (State.reset.withFetchWord 152 0x01000000004000000000002000000000000000)) = some [0x6000] := by decide

/-! ### Witnesses: for every statement with hypotheses, operands and a state that meet them -/

theorem witness_tanh_overflow : ∃ i, 17 ≤ i ∧ i ≤ 46 ∧ (0x000000020000 : Word).getLsbD i ≠ (0x000000020000 : Word).getLsbD 47 :=
  ⟨17, by decide⟩
theorem witness_tanh_in_domain :
    overflows 0x00000001FFFF tanhSelLo = false ∧ overflows 0xFFFFFFFE0000 tanhSelLo = false ∧
    ∀ i, 17 ≤ i → i ≤ 46 → (0 : Word).getLsbD i = (0 : Word).getLsbD 47 := by
  refine ⟨by decide, by decide, fun i _ _ => by simp⟩
theorem witness_sigmoid_overflow :
    ∃ i, 18 ≤ i ∧ i ≤ 46 ∧ (0x000000040000 : Word).getLsbD i ≠ (0x000000040000 : Word).getLsbD 47 :=
  ⟨18, by decide⟩
theorem witness_sigmoid_in_domain :
    overflows 0x00000003FFFF sigSelLo = false ∧ overflows 0xFFFFFFFC0000 sigSelLo = false ∧
    ∀ i, 18 ≤ i → i ≤ 46 → (0 : Word).getLsbD i = (0 : Word).getLsbD 47 := by
  refine ⟨by decide, by decide, fun i _ _ => by simp⟩
/-- `TableReadFindsEntryAtAddress` at the ends of its ranges. -/
theorem witness_table_ends :
    (lutRead (tableWith 15 ⟨7, 9⟩) 15).coef = 7 ∧ (lutRead (tableWith 0 ⟨7, 9⟩) 0).coef = 7 ∧
    (lutRead (tableWith 16 ⟨7, 9⟩) (-16)).coef = 7 ∧ (lutRead (tableWith 31 ⟨7, 9⟩) (-1)).coef = 7 := by decide
/-- `ActivationDomain` at its last window position, and inside the domain at the two edges. -/
theorem witness_domain :
    overflows 0x7FFFFFFFFFFF 43 = false ∧ (selector 0x7FFFFFFFFFFF 43).toInt = 15 ∧
    overflows 0xFFFFFFFE0000 13 = false ∧ (selector 0xFFFFFFFE0000 13).toInt = -16 := by decide
/-- `TanhDomainEdges` and `SigmoidDomainEdges`: each clause at the value where it begins. -/
theorem witness_tanh_edges :
    (0x000000020000 : Word).toInt = 2 ^ 17 ∧ (0xFFFFFFFDFFFF : Word).toInt = -(2 ^ 17) - 1 ∧
    (0xFFFFFFFE0000 : Word).toInt = -(2 ^ 17) ∧ (0x00000001FFFF : Word).toInt = 2 ^ 17 - 1 := by decide
theorem witness_sigmoid_edges :
    (0x000000040000 : Word).toInt = 2 ^ 18 ∧ (0xFFFFFFFBFFFF : Word).toInt = -(2 ^ 18) - 1 ∧
    (0xFFFFFFFC0000 : Word).toInt = -(2 ^ 18) ∧ (0x00000003FFFF : Word).toInt = 2 ^ 18 - 1 := by decide
theorem witness_segment_never_wraps : (14 : Nat) ≤ 14 ∧ overflows 0xFFFFFFFC0000 14 = false := by decide

/-- In a table of zeros every in-domain response is zero. -/
theorem tableWith_zero (k : Int) : lutRead (tableWith 0 ⟨0, 0⟩) k = ⟨0, 0⟩ := by
  simp [lutRead, tableWith, Vector.get]

theorem segmentMap_zero (x : Word) : segmentMap ⟨0, 0⟩ x = 0 := by
  have hc : (conv 0).toInt = 0 := by decide
  simp only [segmentMap, fxAdd, fxMul, fxProduct, trunc, hc, Int.zero_mul]
  decide

/-- The store with tables of zeros meets the assumptions of `ActivationBoundedUnderTableAssumption`. Its sigmoid table answers
0, below SIG_SAT_LO, so the sigmoid half takes a store whose low constant is 0. -/
theorem witness_tanh_bounded : TanhBounded zeroRom ∧ zeroRom.tanhSatNeg.toInt ≤ zeroRom.tanhSatPos.toInt := by
  refine ⟨fun x hx => ?_, by decide⟩
  have h : tanhWord zeroRom x = 0 := by
    simp only [tanhWord, approx, hx]
    exact (congrArg (fun e => segmentMap e x) (tableWith_zero _)).trans (segmentMap_zero x)
  rw [h]
  decide

theorem witness_sigmoid_bounded :
    SigmoidBounded { zeroRom with sigSatLo := 0 } ∧ (0 : Word).toInt ≤ zeroRom.sigSatHi.toInt := by
  refine ⟨fun x hx => ?_, by decide⟩
  have h : sigmoidWord { zeroRom with sigSatLo := 0 } x = 0 := by
    simp only [sigmoidWord, approx, hx]
    exact (congrArg (fun e => segmentMap e x) (tableWith_zero _)).trans (segmentMap_zero x)
  rw [h]
  decide

/-- `AssembledLineIsEncoding`, a literal with a positive denominator. -/
theorem witness_fx_literal : (0 : Nat) < 2 ∧ operandValue [] (.fxLit (-1) 2) = some 0xFFFFFFFF8000 := by decide
theorem witness_idEq_local : localIndex 0x000100000203 ≠ localIndex 0x000100000204 := by decide
theorem witness_id_round_trip :
    (0xFFFF : Word).toNat < 2 ^ 16 ∧ (0xFFFFFF : Word).toNat < 2 ^ 24 ∧ (0xFF : Word).toNat < 2 ^ 8 := by decide
/-- `EncodeOfDecodedWord`: a word with every unread field set. -/
theorem witness_decoded_word : decodeWord 0x10000000008000FFFFFFFFFFFFFFFFFFFFFFFF = .ok (.tanh 0x8000) := by decide
/-- `UnreadFieldsDoNotMatter`: a pair for each clause that differs in what is not read. -/
theorem witness_unread_fields :
    (⟨0x10, 5, 1, 2⟩ : Request) ≠ ⟨0x10, 5, 3, 4⟩ ∧ (⟨0x35, 5, 1, 2⟩ : Request) ≠ ⟨0x35, 5, 1, 4⟩ ∧
    (0x10 : BitVec 8) ∈ [(0x10 : BitVec 8), 0x11, 0x21, 0x22, 0x23] ∧
    (0x35 : BitVec 8) ∈ [(0x01 : BitVec 8), 0x02, 0x03, 0x30, 0x31, 0x32, 0x33, 0x34, 0x35] := by decide
/-- `DecoderFollowsOpTable`: the reserved value next to the last assigned one. -/
theorem witness_reserved_op : (0x36 : BitVec 8) ∉
    [(0x01 : BitVec 8), 0x02, 0x03, 0x10, 0x11, 0x20, 0x21, 0x22, 0x23, 0x30, 0x31, 0x32, 0x33, 0x34, 0x35] := by decide
/-- The unit's turn with a request that decodes: `StepRunsDecodedRequest`, `StepIsOneOfTheTransitions`. -/
theorem witness_unit_turn : nextTurn (busy [addReq] [.unit]) = .unit ∧ (busy [addReq] [.unit]).inflight = addReq :: [] ∧
    decode addReq = .ok (.fxAdd 1 2) ∧ reservedOp addReq.op = false := by decide
theorem witness_host_turns : nextTurn (busy [] [.issue addReq]) = .issue addReq ∧ nextTurn (busy [addReq] [.reset]) = .reset := by
  decide
theorem witness_placed_word : decodeTableWord 152 0x01000000004000000000002000000000000000 = some (.fxAdd 0x4000 0x2000) := by decide
theorem witness_idle_turn : nextTurn idle = .unit ∧ idle.inflight = [] := by decide
/-- `ResetEventDiscardsInflight`, with a request issued right after the reset. -/
theorem witness_reset_then_issue : nextTurn (busy [badReq] [.reset, .issue addReq]) = .reset ∧
    after nextTurn (step (busy [badReq] [.reset, .issue addReq])) = some (.issue addReq) := by decide
/-- `RefusalMarkIsSticky`: both clauses; the mark outlives a reset. -/
theorem witness_refusal : nextTurn (busy [badReq] []) = .unit ∧ reservedOp badReq.op = true ∧
    after State.refused (step { busy [] [.reset] with refused := true }) = some true := by decide
/-- `InstructionFrame`: an instruction that answers. -/
theorem witness_frame : exec (.idMake 1 2 3) idle = .next (respond 0x000100000203 idle) := rfl
/-- `ReadOnlyStoreNeverChanges`: a run of one step. -/
theorem witness_run : Sys2Proof.core.run 1 (busy [addReq] []) = .next (respond 3 (dequeue (busy [addReq] []))) := rfl
/-- `ResponseDependsOnRequestAndStoreOnly`: two states that differ in all but the request and the store. -/
theorem witness_two_states :
    nextTurn (busy [addReq] []) = .unit ∧ nextTurn { busy [addReq, badReq] [.unit] with refused := true } = .unit ∧
    (busy [addReq] []).rom = ({ busy [addReq, badReq] [.unit] with refused := true } : State).rom ∧
    busy [addReq] [] ≠ { busy [addReq, badReq] [.unit] with refused := true } := by decide
theorem witness_issue_order : (busy [addReq, addReq] []).schedule = [] ∧
    ∀ q ∈ (busy [addReq, addReq] []).inflight, reservedOp q.op = false := by decide
/-- `StreamOfResponsesIsConserved`, `ResetFreeRunAnswersEveryRequest`, `CleanEndIffNoReservedOp`: a reset-free schedule. -/
theorem witness_reset_free : resetFree (busy [addReq] [.issue badReq, .unit, .issue addReq]).schedule = true ∧
    owed (busy [addReq] [.issue badReq, .unit, .issue addReq]) = [3, 3] := by decide
/-- `ObedientHostIsNeverRefused`: a schedule with a reset. -/
theorem witness_obedient : (busy [addReq] [.issue addReq, .reset, .unit]).hostObeys = true ∧
    (busy [addReq] [.issue addReq, .reset, .unit]).refused = false := by decide
/-- `PortShowsLastResponse`: a state whose port may be read. -/
theorem witness_port_current : (respond 7 (busy [addReq] [])).portCurrent ∧
    (respond 7 (busy [addReq] [])).readPort = some 7 := ⟨fun _ => rfl, rfl⟩

end Sys2Proof.Tests
end

namespace Sys2Proof.Machine

/-! ### The table read -/

/-- `LutRead(T, k)` is the entry at the physical address `trunc_5(k)` (R25). -/
theorem toList_getElem?_lutRead (t : Table) (k : Int) :
    t.toList[(BitVec.ofInt 5 k).toNat]? = some (lutRead t k) := by
  have hlt : (BitVec.ofInt 5 k).toNat < t.toList.length := by
    rw [Vector.length_toList]
    exact (BitVec.ofInt 5 k).isLt
  rw [List.getElem?_eq_getElem hlt]
  rfl

theorem toNat_ofInt5_of_nonneg {k : Int} (hlo : 0 ≤ k) (hhi : k ≤ 15) : (BitVec.ofInt 5 k).toNat = k.toNat := by
  rw [BitVec.toNat_ofInt]
  omega

theorem toNat_ofInt5_of_neg {k : Int} (hlo : -16 ≤ k) (hhi : k ≤ -1) :
    (BitVec.ofInt 5 k).toNat = (k + 32).toNat := by
  rw [BitVec.toNat_ofInt]
  omega

/-- Settles O9: every clause is the entry at `trunc_5(k)`, with the address written out on its range. -/
theorem tableReadFindsEntryAtAddress : Obligations.TableReadFindsEntryAtAddress := by
  intro t
  refine ⟨fun k hlo hhi => ?_, fun k hlo hhi => ?_, fun rng => ?_⟩
  · rw [← toNat_ofInt5_of_nonneg hlo hhi]
    exact toList_getElem?_lutRead t k
  · rw [← toNat_ofInt5_of_neg hlo hhi]
    exact toList_getElem?_lutRead t k
  · have h := toList_getElem?_lutRead t rng.toInt
    rwa [BitVec.ofInt_toInt] at h

/-! ### The invariants of every step -/

/-- What one step can make of a state, with the guard of each case (R138; the idle turn is log 1's). -/
inductive Transition (s : State) : State → Prop where
  | issue (q : Request) (hturn : nextTurn s = .issue q) : Transition s (issue q (endTurn s))
  | reset (hturn : nextTurn s = .reset) : Transition s (unitReset (endTurn s))
  | idle (hturn : nextTurn s = .unit) (hempty : s.inflight = []) : Transition s (endTurn s)
  | answer (q : Request) (rest : List Request) (i : Instr) (hturn : nextTurn s = .unit)
      (hhead : s.inflight = q :: rest) (hdec : decode q = .ok i) :
      Transition s (respond (responseOf s.rom i) (dequeue (endTurn s)))
  | refuse (q : Request) (rest : List Request) (e : DecodeError) (hturn : nextTurn s = .unit)
      (hhead : s.inflight = q :: rest) (hdec : decode q = .error e) :
      Transition s (markRefused (dequeue (endTurn s)))

theorem transition_of_step {s t : State} (h : step s = .next t) : Transition s t := by
  rcases step_cases s with ⟨q, hturn, hs⟩ | ⟨hturn, hs⟩ | ⟨hturn, hs⟩
  · cases hs.symm.trans h
    exact .issue q hturn
  · cases hs.symm.trans h
    exact .reset hturn
  · rcases unitMove_cases (endTurn s) with ⟨hempty, hu⟩ | ⟨q, rest, i, hhead, hdec, hu⟩ | ⟨q, rest, e, hhead, hdec, hu⟩
    · cases (hs.trans hu).symm.trans h
      exact .idle hturn hempty
    · cases (hs.trans hu).symm.trans h
      exact .answer q rest i hturn hhead hdec
    · cases (hs.trans hu).symm.trans h
      exact .refuse q rest e hturn hhead hdec

theorem step_rom {s t : State} (h : step s = .next t) : t.rom = s.rom := by
  cases transition_of_step h <;> rfl

/-- Settles O50: every step keeps the read-only store, so every run does. -/
theorem readOnlyStoreNeverChanges : Obligations.ReadOnlyStoreNeverChanges := by
  intro n s t h
  have hkeep : ∀ u v : State, u.rom = s.rom → step u = .next v → v.rom = s.rom :=
    fun u v hu huv => (step_rom huv).trans hu
  exact run_keeps hkeep n s t rfl h

/-- After a response the port shows it. -/
theorem portCurrent_respond (v : Word) (s : State) : (respond v s).portCurrent := by
  intro _
  simp

/-- A port that may not be read meets the invariant. -/
theorem portCurrent_of_rValid_eq_false {s : State} (h : s.rValid = false) : s.portCurrent := by
  intro hv
  simp [h] at hv

/-- Settles O59: a response makes the port current, a reset makes it unreadable, and no other transition touches the
port or the record of responses. -/
theorem portShowsLastResponse : Obligations.PortShowsLastResponse := by
  intro s t hs h
  cases transition_of_step h with
  | issue => exact hs
  | reset => exact portCurrent_of_rValid_eq_false rfl
  | idle => exact hs
  | answer => exact portCurrent_respond _ _
  | refuse => exact hs

/-! ### One instruction -/

/-- Settles O51: an instruction is one response, and these are what a response leaves in each field. -/
theorem instructionFrame : Obligations.InstructionFrame := by
  intro i s t h
  cases (exec_eq_respond i s).symm.trans h
  simp

/-! ### The state after reset -/

/-- Settles O41: the decimals' floors and the four constant words evaluate to the same bit vectors. -/
theorem saturationConstantsAreFlooredDecimals : Obligations.SaturationConstantsAreFlooredDecimals := by
  unfold Obligations.SaturationConstantsAreFlooredDecimals
  decide

theorem reset_tanhLut_get (k : Fin 32) : State.reset.rom.tanhLut.get k = Config.tanhLut k :=
  Vector.getElem_ofFn k.isLt

theorem reset_sigLut_get (k : Fin 32) : State.reset.rom.sigLut.get k = Config.sigLut k :=
  Vector.getElem_ofFn k.isLt

/-- Settles O42: each table entry is the open parameter at its address, and every other field is a literal. -/
theorem resetStateIsEmpty : Obligations.ResetStateIsEmpty :=
  ⟨rfl, fun k => ⟨reset_tanhLut_get k, reset_sigLut_get k⟩, rfl, rfl, rfl, rfl⟩

/-- Settles O58: with the queue and the schedule empty the host has nothing to obey. -/
theorem resetIsObedientAndUnrefused : Obligations.ResetIsObedientAndUnrefused :=
  ⟨rfl, rfl⟩

/-- Settles O60: at reset no response was given, so the port is not readable and the invariant asks nothing of it. -/
theorem resetPortIsNotReadable : Obligations.ResetPortIsNotReadable :=
  ⟨portCurrent_of_rValid_eq_false rfl, rfl⟩

end Sys2Proof.Machine

namespace Sys2Proof

/-! ### Assigned and reserved ops -/

theorem reservedOp_code (o : Op) : reservedOp o.code = false := by cases o <;> rfl

/-- The decoder's table and R54's list of reserved values share out the op values between them. -/
theorem ofCode_eq_none_iff (c : BitVec 8) : Op.ofCode c = none ↔ reservedOp c = true := by
  constructor
  · intro h
    have hne : ∀ o ∈ Op.all, o.code.toNat ≠ c.toNat := by
      simpa [Op.ofCode, BitVec.toNat_inj] using h
    simp only [Op.all, List.forall_mem_cons, Op.code, BitVec.reduceToNat] at hne
    simp only [reservedOp, Bool.or_eq_true, Bool.and_eq_true, decide_eq_true_eq]
    omega
  · intro h
    cases ho : Op.ofCode c with
    | none => rfl
    | some o =>
      rw [← code_of_ofCode ho, reservedOp_code] at h
      cases h

/-- A request whose op is assigned decodes (R52, R54). -/
theorem decode_ok_of_assigned {q : Request} (h : reservedOp q.op = false) : ∃ i, decode q = .ok i := by
  cases hd : decode q with
  | ok i => exact ⟨i, rfl⟩
  | error e =>
    have hres : reservedOp q.op = true := (ofCode_eq_none_iff q.op).mp ((decode_error_iff q e).mp hd).1
    simp [h] at hres

end Sys2Proof

namespace Sys2Proof.Machine

/-! ### The response of one step -/

/-- At the unit's turn a head request that decodes is answered with its response word (R138). -/
theorem step_answer {s : State} {q : Request} {rest : List Request} {i : Instr} (hturn : nextTurn s = .unit)
    (hhead : s.inflight = q :: rest) (hdec : decode q = .ok i) :
    step s = .next (respond (responseOf s.rom i) (dequeue (endTurn s))) := by
  simp [step, hturn, unitMove, hhead, hdec, exec_eq_respond]

/-- Settles O52: both states answer with `responseOf` of the shared store and the shared request's instruction. -/
theorem responseDependsOnRequestAndStoreOnly : Obligations.ResponseDependsOnRequestAndStoreOnly := by
  intro s s' q rest rest' hturn hturn' hhead hhead' hrom hop
  obtain ⟨i, hdec⟩ := decode_ok_of_assigned hop
  have hs := step_answer hturn hhead hdec
  have hs' := step_answer hturn' hhead' hdec
  rw [← hrom] at hs'
  exact ⟨_, _, responseOf s.rom i, hs, hs', rfl, rfl, rfl, rfl⟩

/-! ### The stream of responses -/

theorem answer_of_decode_ok (m : Rom) {q : Request} {i : Instr} (h : decode q = .ok i) :
    answer m q = some (responseOf m i) := by
  simp [answer, h, Except.toOption]

theorem answer_of_decode_error (m : Rom) {q : Request} {e : DecodeError} (h : decode q = .error e) :
    answer m q = none := by
  simp [answer, h, Except.toOption]

/-- A turn that is the host's issue is the first of the requests still to come. -/
theorem issued_of_issue_turn {s : State} {q : Request} (h : nextTurn s = .issue q) :
    issued s.schedule = q :: issued s.schedule.tail := by
  cases hs : s.schedule with
  | nil => simp [nextTurn, hs] at h
  | cons turn later =>
    have hturn : turn = .issue q := by simpa [nextTurn, hs] using h
    simp [issued, hturn, issuedBy]

/-- A turn that is the unit's issues nothing. -/
theorem issued_of_unit_turn {s : State} (h : nextTurn s = .unit) : issued s.schedule.tail = issued s.schedule := by
  cases hs : s.schedule with
  | nil => rfl
  | cons turn later =>
    have hturn : turn = .unit := by simpa [nextTurn, hs] using h
    simp [issued, List.filterMap_cons, hturn, issuedBy]

theorem resetFree_tail {ts : List Turn} (h : resetFree ts = true) : resetFree ts.tail = true := by
  simp only [resetFree, List.all_eq_true] at h ⊢
  exact fun turn hmem => h turn (List.mem_of_mem_tail hmem)

theorem nextTurn_ne_reset {s : State} (h : resetFree s.schedule = true) : nextTurn s ≠ .reset := by
  cases hs : s.schedule with
  | nil => simp [nextTurn, hs]
  | cons turn later =>
    rw [hs] at h
    have hturn : turn ≠ .reset := of_decide_eq_true (List.all_eq_true.mp h turn List.mem_cons_self)
    simpa [nextTurn, hs] using hturn

/-- The request that moves from the schedule to the queue keeps its place in the stream. -/
theorem owed_issue {s : State} {q : Request} (hturn : nextTurn s = .issue q) : owed (issue q (endTurn s)) = owed s := by
  simp [owed, issued_of_issue_turn hturn]

theorem owed_endTurn {s : State} (hturn : nextTurn s = .unit) : owed (endTurn s) = owed s := by
  simp [owed, issued_of_unit_turn hturn]

/-- The head's answer moves from the answers owed to the responses given. -/
theorem owed_respond {s : State} {q : Request} {rest : List Request} {i : Instr} (hhead : s.inflight = q :: rest)
    (hdec : decode q = .ok i) : owed (respond (responseOf s.rom i) (dequeue s)) = owed s := by
  simp [owed, answers, hhead, answer_of_decode_ok s.rom hdec]

/-- A request with a reserved op has no answer in the stream, so taking it from the queue leaves the stream as it is. -/
theorem owed_refuse {s : State} {q : Request} {rest : List Request} {e : DecodeError} (hhead : s.inflight = q :: rest)
    (hdec : decode q = .error e) : owed (markRefused (dequeue s)) = owed s := by
  simp [owed, answers, hhead, answer_of_decode_error s.rom hdec]

theorem step_schedule {s t : State} (h : step s = .next t) : t.schedule = s.schedule.tail := by
  cases transition_of_step h <;> rfl

theorem step_owed {s t : State} (hfree : resetFree s.schedule = true) (h : step s = .next t) : owed t = owed s := by
  cases transition_of_step h with
  | issue q hturn => exact owed_issue hturn
  | reset hturn => exact absurd hturn (nextTurn_ne_reset hfree)
  | idle hturn _ => exact owed_endTurn hturn
  | answer q rest i hturn hhead hdec => exact (owed_respond (s := endTurn s) hhead hdec).trans (owed_endTurn hturn)
  | refuse q rest e hturn hhead hdec => exact (owed_refuse (s := endTurn s) hhead hdec).trans (owed_endTurn hturn)

/-- Settles O54: no transition but a reset takes anything from the stream, and a step only shortens the schedule. -/
theorem streamOfResponsesIsConserved : Obligations.StreamOfResponsesIsConserved := by
  intro s t hfree h
  refine ⟨step_owed hfree h, ?_⟩
  rw [step_schedule h]
  exact resetFree_tail hfree

end Sys2Proof.Machine

namespace Sys2Proof

/-! ### The instruction's encoding -/

/-- The encoder writes the fields an operation reads and zero in the others (R60). -/
theorem encode_withFields (o : Op) (a b c : Word) :
    encode (o.withFields a b c) = ⟨o.code, a, if o.readsB then b else 0, if o.readsC then c else 0⟩ := by
  cases o <;> rfl

/-- Encoding keeps every operand: the fields it sets to zero are no operand of the instruction (R53, R60). -/
theorem decode_encode (i : Instr) : decode (encode i) = .ok i := by
  cases i <;> rfl

/-- Settles O34: packing into the word loses no field of the request, and the request's encoding keeps every operand. -/
theorem decodeOfEncodedInstruction : Obligations.DecodeOfEncodedInstruction := by
  intro i
  calc decodeWord (encodeWord i)
    _ = decode (encode i) := congrArg decode (ofWord_toWord (encode i))
    _ = .ok i := decode_encode i

/-- Settles O35: the word's fields name the operation and its operands, and encoding these clears what is not read. -/
theorem encodeOfDecodedWord : Obligations.EncodeOfDecodedWord := by
  intro w i h
  obtain ⟨o, hcode, rfl⟩ := (decode_ok_iff (Request.ofWord w) i).mp h
  refine ⟨o, hcode, ?_⟩
  rw [encodeWord, encode_withFields, hcode]
  rfl

/-! ### Fields of a word and of a record -/

/-- Two neighbouring fields, concatenated, are the field they make up together. -/
theorem extract_append_extract {n : Nat} (x : BitVec n) (start k m : Nat) :
    x.extractLsb' (start + m) k ++ x.extractLsb' start m = x.extractLsb' start (k + m) :=
  BitVec.extractLsb'_append_extractLsb'_eq_extractLsb' rfl

/-- The fields of a word, put together, are the word: they lie side by side and cover it (R50). -/
theorem toWord_ofWord (w : RequestWord) : (Request.ofWord w).toWord = w := by
  calc w.extractLsb' 144 8 ++ w.extractLsb' 96 48 ++ w.extractLsb' 48 48 ++ w.extractLsb' 0 48
    _ = w.extractLsb' 96 56 ++ w.extractLsb' 48 48 ++ w.extractLsb' 0 48 := by
      rw [extract_append_extract w 96 8 48]
    _ = w.extractLsb' 48 104 ++ w.extractLsb' 0 48 := by rw [extract_append_extract w 48 56 48]
    _ = w.extractLsb' 0 152 := extract_append_extract w 0 104 48
    _ = w := BitVec.extractLsb'_eq_self

/-- Settles O33: each field of the packed word is the field of the request that unpacking gives back. -/
theorem requestFieldsOfWord : Obligations.RequestFieldsOfWord := by
  intro q w
  have hq : Request.ofWord q.toWord = q := ofWord_toWord q
  exact ⟨congrArg Request.op hq, congrArg Request.a hq, congrArg Request.b hq, congrArg Request.c hq, hq,
    toWord_ofWord w⟩

end Sys2Proof

namespace Sys2Proof.Machine

theorem packConnection_src (k : Connection) : (packConnection k).extractLsb' 48 48 = k.src := by
  rw [packConnection, extract_append_high _ _ _ _ (by omega)]
  exact BitVec.extractLsb'_eq_self

theorem packConnection_dst (k : Connection) : (packConnection k).extractLsb' 0 48 = k.dst :=
  extract_append_low k.src k.dst

theorem unpackConnection_packConnection (k : Connection) : unpackConnection (packConnection k) = k := by
  rw [unpackConnection, packConnection_src, packConnection_dst]

theorem packConnection_unpackConnection (w : BitVec 96) : packConnection (unpackConnection w) = w :=
  (extract_append_extract w 0 48 48).trans BitVec.extractLsb'_eq_self

/-- Settles O32: the two halves of the 96 bits are the connection's fields, and a pending update is its one field. -/
theorem recordLayoutsRoundTrip : Obligations.RecordLayoutsRoundTrip := by
  intro k u w v
  exact ⟨rfl, packConnection_src k, packConnection_dst k, rfl, unpackConnection_packConnection k,
    packConnection_unpackConnection w, rfl, rfl⟩

end Sys2Proof.Machine

namespace Sys2Proof

/-! ### The op table -/

/-- A request with an operation's code decodes to that operation with its fields, whatever they hold (R52). -/
theorem decode_code (o : Op) (a b c : Word) : decode ⟨o.code, a, b, c⟩ = .ok (o.withFields a b c) :=
  (decode_ok_iff _ _).mpr ⟨o, rfl, rfl⟩

/-- An op value that is no operation's code is refused by name. -/
theorem decode_of_not_mem_codes {q : Request} (h : q.op ∉ Op.all.map Op.code) :
    decode q = .error (.reservedOp q.op) := by
  have hnone : Op.ofCode q.op = none := by
    rw [Op.ofCode, List.find?_eq_none]
    intro o ho hcode
    exact h (List.mem_map.mpr ⟨o, ho, eq_of_beq hcode⟩)
  exact (decode_error_iff q _).mpr ⟨hnone, rfl⟩

/-- Settles O36: each row of R52 is its operation's code, and the values listed are all the codes. -/
theorem decoderFollowsOpTable : Obligations.DecoderFollowsOpTable := by
  intro a b c
  exact ⟨decode_code .fxAdd a b c, decode_code .fxSub a b c, decode_code .fxMul a b c,
    decode_code .tanh a b c, decode_code .sigmoid a b c,
    decode_code .idMake a b c, decode_code .idTile a b c, decode_code .idPart a b c, decode_code .idLocal a b c,
    decode_code .idEq a b c, decode_code .idNe a b c, decode_code .idLt a b c, decode_code .idGt a b c,
    decode_code .idLe a b c, decode_code .idGe a b c,
    fun _ hop => decode_of_not_mem_codes hop⟩

/-- R54's list of reserved op values, as a proposition. -/
theorem reservedOp_iff (op : BitVec 8) :
    reservedOp op = true ↔
      (op.toNat = 0x00 ∨ (0x04 ≤ op.toNat ∧ op.toNat ≤ 0x0F) ∨ (0x12 ≤ op.toNat ∧ op.toNat ≤ 0x1F) ∨
        (0x24 ≤ op.toNat ∧ op.toNat ≤ 0x2F) ∨ (0x36 ≤ op.toNat ∧ op.toNat ≤ 0xFF)) := by
  simp only [reservedOp, Bool.or_eq_true, Bool.and_eq_true, decide_eq_true_eq, or_assoc]

/-- The decoder's refusal names the op, and R54's list is exactly what it refuses. -/
theorem decode_refuses_iff (q : Request) : decode q = .error (.reservedOp q.op) ↔ reservedOp q.op = true := by
  rw [decode_error_iff, ofCode_eq_none_iff]
  exact and_iff_left rfl

theorem decode_ok_iff_assigned (q : Request) : (∃ i, decode q = .ok i) ↔ reservedOp q.op = false := by
  constructor
  · rintro ⟨i, hi⟩
    obtain ⟨o, hcode, -⟩ := (decode_ok_iff q i).mp hi
    rw [← hcode]
    exact reservedOp_code o
  · exact decode_ok_of_assigned

/-- Settles O37: the decoder's table and R54's list share out the op values, and the op is the word's top field. -/
theorem decoderRefusesExactlyReservedOps : Obligations.DecoderRefusesExactlyReservedOps := by
  intro w
  exact ⟨(decode_refuses_iff (Request.ofWord w)).trans (reservedOp_iff _),
    decode_ok_iff_assigned (Request.ofWord w)⟩

/-- Settles O40: each word's fields and its op's row of R52 evaluate to the instruction written. -/
theorem sampleWordsDecode : Obligations.SampleWordsDecode := by
  unfold Obligations.SampleWordsDecode
  decide

/-! ### Fields that are not read -/

/-- An operation ignores what stands in the fields it does not read (R53). -/
theorem withFields_zero_unread (o : Op) (a b c : Word) :
    o.withFields a (if o.readsB then b else 0) (if o.readsC then c else 0) = o.withFields a b c := by
  cases o <;> rfl

/-- Two requests with one op that agree on the fields its operation reads decode alike. -/
theorem decode_congr {q p : Request} (hop : q.op = p.op) (ha : q.a = p.a)
    (hb : ∀ o : Op, o.code = q.op → o.readsB = true → q.b = p.b)
    (hc : ∀ o : Op, o.code = q.op → o.readsC = true → q.c = p.c) : decode q = decode p := by
  unfold decode
  rw [← hop]
  cases ho : Op.ofCode q.op with
  | none => rfl
  | some o =>
    have hcode : o.code = q.op := code_of_ofCode ho
    have hsame : o.withFields q.a q.b q.c = o.withFields p.a p.b p.c := by
      rw [← withFields_zero_unread o q.a, ← withFields_zero_unread o p.a, ha,
        ite_congr rfl (hb o hcode) (fun _ => rfl), ite_congr rfl (hc o hcode) (fun _ => rfl)]
    simp only [hsame]

/-- The one-operand group of R53 reads neither b nor c. -/
theorem reads_of_code_mem_one_operand {o : Op} (h : o.code ∈ [0x10, 0x11, 0x21, 0x22, 0x23]) :
    o.readsB = false ∧ o.readsC = false := by
  revert h
  cases o <;> decide

/-- The two-operand group of R53 does not read c. -/
theorem readsC_of_code_mem_two_operand {o : Op}
    (h : o.code ∈ [0x01, 0x02, 0x03, 0x30, 0x31, 0x32, 0x33, 0x34, 0x35]) : o.readsC = false := by
  revert h
  cases o <;> decide

end Sys2Proof

namespace Sys2Proof.Machine

/-- Settles O38: the two requests decode alike, since the operation of each group reads none of the other fields. -/
theorem unreadFieldsDoNotMatter : Obligations.UnreadFieldsDoNotMatter := by
  intro m q p hop
  have hanswer (h : decode q = decode p) : answer m q = answer m p := by rw [answer, answer, h]
  refine ⟨fun hmem ha => hanswer (decode_congr hop ha ?_ ?_), fun hmem ha hb => hanswer (decode_congr hop ha ?_ ?_)⟩
  · intro o hcode hreads
    obtain ⟨hB, -⟩ := reads_of_code_mem_one_operand (hcode ▸ hmem)
    simp [hB] at hreads
  · intro o hcode hreads
    obtain ⟨-, hC⟩ := reads_of_code_mem_one_operand (hcode ▸ hmem)
    simp [hC] at hreads
  · exact fun _ _ _ => hb
  · intro o hcode hreads
    simp [readsC_of_code_mem_two_operand (hcode ▸ hmem)] at hreads

/-! ### Assembler lines -/

/-- An instruction's line lists exactly the operands its operation reads, so it has a request, with zero elsewhere. -/
theorem assembleLine_lineOf (bound : List (String × Word)) (i : Instr) :
    assembleLine bound (lineOf i) = some (encode i) := by
  cases i <;> rfl

/-- The integer division in `fx` is the floor that R60 writes. -/
theorem fx_eq_floor (n : Int) (d : Nat) : fx n d = BitVec.ofInt 48 ⌊((n : Rat) / (d : Rat)) * 2 ^ 16⌋ := by
  have hscale : (n : Rat) / (d : Rat) * 2 ^ 16 = ((n * 2 ^ 16 : Int) : Rat) / (d : Rat) := by
    push_cast
    ring
  rw [fx, hscale, Rat.floor_intCast_div_natCast]

/-- Settles O39: a line of hex words is evaluated constructor by constructor, a name by the first binding, and a
literal's quotient is a floor. -/
theorem assembledLineIsEncoding : Obligations.AssembledLineIsEncoding :=
  ⟨assembleLine_lineOf, fun _ _ _ => List.lookup_cons_self, fun _ n d _ => congrArg some (fx_eq_floor n d)⟩

/-! ### The pseudo-instructions -/

theorem fxSub_zero_left (a : Word) : fxSub 0 a = -a := by
  simp [fxSub, trunc, BitVec.ofInt_neg]

theorem fxAdd_zero_right (a : Word) : fxAdd a 0 = a := by
  simp [fxAdd, trunc]

/-- Every instruction answers its response word, completes, and changes nothing else. -/
theorem exec_eq_answered (i : Instr) (s : State) : exec i s = .next (answered (responseOf s.rom i) s) :=
  exec_eq_respond i s

theorem exec_fxNeg (a : Word) (s : State) : exec (Instr.fxNeg a) s = .next (answered (-a) s) := by
  have h : responseOf s.rom (Instr.fxNeg a) = -a := fxSub_zero_left a
  rw [exec_eq_answered, h]

theorem exec_fxMov (a : Word) (s : State) : exec (Instr.fxMov a) s = .next (answered a s) := by
  have h : responseOf s.rom (Instr.fxMov a) = a := fxAdd_zero_right a
  rw [exec_eq_answered, h]

/-- Settles O8: each line expands to its request with the zero operand in place, and zero is neutral but for
the sign. -/
theorem pseudoOpsExpandToOneRequest : Obligations.PseudoOpsExpandToOneRequest := by
  intro a bound bind s
  exact ⟨rfl, rfl, exec_fxNeg a s, exec_fxMov a s⟩

end Sys2Proof.Machine

namespace Sys2Proof.Machine

/-! ### Fixed-point addition and subtraction -/

/-- An instruction whose response word is v answers v, completes, and changes nothing else. -/
theorem exec_answers {i : Instr} {s : State} {v : Word} (h : responseOf s.rom i = v) :
    exec i s = .next (answered v s) := by
  rw [exec_eq_answered, h]

/-- FX_ADD is addition modulo 2^48 (R74). -/
theorem fxAdd_eq_add (a b : Word) : fxAdd a b = a + b := by
  rw [fxAdd, trunc, BitVec.ofInt_add, BitVec.ofInt_toInt, BitVec.ofInt_toInt]

/-- FX_SUB is subtraction modulo 2^48 (R74). -/
theorem fxSub_eq_sub (a b : Word) : fxSub a b = a - b := by
  rw [fxSub, trunc, Int.sub_eq_add_neg, BitVec.ofInt_add, BitVec.ofInt_neg, BitVec.ofInt_toInt, BitVec.ofInt_toInt,
    BitVec.sub_eq_add_neg]

/-- The signed range of a word (R10). -/
theorem toInt_range (a : Word) : -2 ^ 47 ≤ a.toInt ∧ a.toInt ≤ 2 ^ 47 - 1 :=
  ⟨BitVec.le_toInt a, Int.le_sub_one_of_lt BitVec.toInt_lt⟩

/-- The unsigned reading gives the same sum, since modulo 2^48 both readings of a word are the word. -/
theorem fxAdd_eq_ofNat (a b : Word) : fxAdd a b = BitVec.ofNat 48 (a.toNat + b.toNat) := by
  rw [fxAdd_eq_add, BitVec.ofNat_add, BitVec.ofNat_toNat, BitVec.ofNat_toNat, BitVec.setWidth_eq, BitVec.setWidth_eq]

theorem fxAdd_zero_left (b : Word) : fxAdd 0 b = b := by
  rw [fxAdd_eq_add, zero_add]

theorem fxSub_self (a : Word) : fxSub a a = 0 := by
  rw [fxSub_eq_sub, sub_self]

/-- Settles O6: the laws are those of the words' own addition and subtraction. -/
theorem fxAddSubGroupLaws : Obligations.FxAddSubGroupLaws := by
  intro a b c
  simp only [fxAdd_eq_add, fxSub_eq_sub]
  have hneg : a - b = a + (0 - b) := by rw [zero_sub, sub_eq_add_neg]
  exact ⟨add_comm a b, add_assoc a b c, add_zero a, hneg, sub_add_cancel a b⟩

/-- Settles O4, by the sum of the unsigned readings. -/
theorem fxAddIsUnsignedSum : Obligations.FxAddIsUnsignedSum := by
  intro a b s
  exact exec_answers (fxAdd_eq_ofNat a b)

/-- Settles O1: the range is twice the operands' range, and the wrap cases and the example evaluate. -/
theorem fxAddRespondsWrappedSum : Obligations.FxAddRespondsWrappedSum := by
  intro a b c s
  obtain ⟨ha_lo, ha_hi⟩ := toInt_range a
  obtain ⟨hb_lo, hb_hi⟩ := toInt_range b
  exact ⟨decode_code .fxAdd a b c, exec_answers rfl, by omega, by omega, exec_answers (fxAdd_zero_right a),
    exec_answers (fxAdd_zero_left b), exec_answers rfl, exec_answers rfl, exec_answers rfl⟩

/-- Settles O2: the range follows from the operands' range, and the wrap cases and the example evaluate. -/
theorem fxSubRespondsWrappedDifference : Obligations.FxSubRespondsWrappedDifference := by
  intro a b c s
  obtain ⟨ha_lo, ha_hi⟩ := toInt_range a
  obtain ⟨hb_lo, hb_hi⟩ := toInt_range b
  exact ⟨decode_code .fxSub a b c, exec_answers rfl, by omega, by omega, exec_answers (fxSub_self a),
    exec_answers rfl, exec_answers rfl, exec_answers rfl, exec_answers rfl⟩

/-! ### Fixed-point multiplication -/

/-- The window 63:16 of a 96-bit word is the integer over 2^16, floored and wrapped: the bits below the window are what
the floor drops, those above it what the wrap drops. -/
theorem extract_product_window (p : Int) :
    (BitVec.ofInt 96 p).extractLsb' 16 48 = BitVec.ofInt 48 (Int.fdiv p (2 ^ 16)) := by
  apply BitVec.eq_of_toNat_eq
  rw [Int.fdiv_eq_ediv_of_nonneg _ (by decide), BitVec.extractLsb'_toNat, BitVec.toNat_ofInt, BitVec.toNat_ofInt,
    Nat.shiftRight_eq_div_pow]
  omega

theorem fxMul_eq_floor (a b : Word) : fxMul a b = BitVec.ofInt 48 (Int.fdiv (a.toInt * b.toInt) (2 ^ 16)) :=
  extract_product_window _

theorem fxMul_comm (a b : Word) : fxMul a b = fxMul b a := by
  rw [fxMul, fxMul, fxProduct, fxProduct, Int.mul_comm]

/-- 1.0 is neutral: the product is a multiple of 2^16, so the floor is exact and gives the other operand back. -/
theorem fxMul_one_right (a : Word) : fxMul a 0x000000010000 = a := by
  have hone : (0x000000010000 : Word).toInt = 2 ^ 16 := by decide
  rw [fxMul_eq_floor, hone, Int.mul_fdiv_cancel _ (by decide), BitVec.ofInt_toInt]

theorem fxMul_zero_right (a : Word) : fxMul a 0 = 0 := by
  have hzero : (0 : Word).toInt = 0 := by decide
  rw [fxMul_eq_floor, hzero, Int.mul_zero, Int.zero_fdiv]
  rfl

/-- The product of two signed readings is least where one is least and the other greatest. -/
theorem neg_mul_pred_le_mul {m x y : Int} (hx_lo : -m ≤ x) (hx_hi : x ≤ m - 1) (hy_lo : -m ≤ y) (hy_hi : y ≤ m - 1) :
    -(m * (m - 1)) ≤ x * y := by
  have hm : 0 ≤ m * (m - 1) := mul_nonneg (by omega) (by omega)
  rcases le_total 0 x with hx | hx
  · rcases le_total 0 y with hy | hy
    · linarith [mul_nonneg hx hy]
    · nlinarith
  · rcases le_total 0 y with hy | hy
    · nlinarith
    · linarith [mul_nonneg_of_nonpos_of_nonpos hx hy]

/-- The range of the exact product (R72). -/
theorem product_range (a b : Word) : -(2 ^ 94) + 2 ^ 47 ≤ a.toInt * b.toInt ∧ a.toInt * b.toInt ≤ 2 ^ 94 := by
  obtain ⟨ha_lo, ha_hi⟩ := toInt_range a
  obtain ⟨hb_lo, hb_hi⟩ := toInt_range b
  have hlo := neg_mul_pred_le_mul ha_lo ha_hi hb_lo hb_hi
  exact ⟨by omega, BitVec.toInt_mul_toInt_le⟩

/-- 96 bits hold the exact product (R72). -/
theorem toInt_product (a b : Word) : (BitVec.ofInt 96 (a.toInt * b.toInt)).toInt = a.toInt * b.toInt := by
  obtain ⟨hlo, hhi⟩ := product_range a b
  exact BitVec.toInt_ofInt_eq_self (by decide) (by omega) (by omega)

/-- Settles O5, by the window as a floor. -/
theorem fxMulFloorsTheScaledProduct : Obligations.FxMulFloorsTheScaledProduct := by
  intro a b s
  exact exec_answers (fxMul_eq_floor a b)

/-- Settles O3: the product's range and the neutral operands are lemmas, and the rounding and wrap cases evaluate. -/
theorem fxMulRespondsProductWindow : Obligations.FxMulRespondsProductWindow := by
  intro a b c s
  obtain ⟨hlo, hhi⟩ := product_range a b
  exact ⟨decode_code .fxMul a b c, exec_answers rfl, hlo, hhi, toInt_product a b,
    exec_answers (fxMul_one_right a), exec_answers ((fxMul_comm _ b).trans (fxMul_one_right b)),
    exec_answers (fxMul_zero_right a), exec_answers ((fxMul_comm _ b).trans (fxMul_zero_right b)),
    exec_answers rfl, exec_answers rfl, exec_answers rfl, exec_answers rfl, exec_answers rfl, exec_answers rfl⟩

/-- The square of the least positive word floors to zero, and no later factor brings it back; multiplied by the large
factor first, it keeps its bits. -/
theorem fxMul_not_assoc : fxMul (fxMul 1 1) 0x000100000000 ≠ fxMul 1 (fxMul 1 0x000100000000) := by decide

/-- The least positive word times one half floors to zero, twice over; times the halves' sum it is itself. -/
theorem fxMul_not_distrib : fxMul 1 (fxAdd 0x8000 0x8000) ≠ fxAdd (fxMul 1 0x8000) (fxMul 1 0x8000) := by decide

/-- Settles O7: the two laws that fail do so where a product is floored to zero. -/
theorem fxMulLawsAndTheirLimits : Obligations.FxMulLawsAndTheirLimits :=
  ⟨fun a b => ⟨fxMul_comm a b, fxMul_one_right a, fxMul_zero_right a⟩, ⟨1, 1, 0x000100000000, fxMul_not_assoc⟩,
    ⟨1, 0x8000, 0x8000, fxMul_not_distrib⟩⟩

end Sys2Proof.Machine

namespace Sys2Proof.Machine

/-! ### Table words -/

/-- The signed range of a table word (R10, R25). -/
theorem tableWord_range (t : TableWord) : -2 ^ 15 ≤ t.toInt ∧ t.toInt ≤ 2 ^ 15 - 1 :=
  ⟨BitVec.le_toInt t, Int.le_sub_one_of_lt BitVec.toInt_lt⟩

theorem toInt_sext48 (t : TableWord) : (sext48 t).toInt = t.toInt :=
  BitVec.toInt_signExtend_of_le (by decide)

/-- The shift of R83 multiplies by 2^5, and 21 bits hold the result: no bit is lost. -/
theorem toInt_conv (t : TableWord) : (conv t).toInt = t.toInt * 2 ^ 5 := by
  obtain ⟨hlo, hhi⟩ := tableWord_range t
  have hmul : conv t = BitVec.ofInt 48 (t.toInt * 2 ^ 5) := by
    rw [BitVec.ofInt_mul, ← toInt_sext48, BitVec.ofInt_toInt, conv, BitVec.shiftLeft_eq_mul_twoPow]
    rfl
  rw [hmul]
  exact BitVec.toInt_ofInt_eq_self (by decide) (by omega) (by omega)

theorem realOfWord_conv (t : TableWord) : realOfWord (conv t) = realOfTableWord t := by
  rw [realOfWord, realOfTableWord, toInt_conv]
  push_cast
  ring

/-- Settles O10: sign extension keeps the integer, and the shift multiplies it by 2^5. -/
theorem tableWordConversionKeepsValue : Obligations.TableWordConversionKeepsValue := by
  intro t
  obtain ⟨hlo, hhi⟩ := tableWord_range t
  exact ⟨rfl, toInt_conv t, realOfWord_conv t, by omega⟩

/-! ### The domain of an activation -/

theorem toInt_sshiftRight_eq_ediv (x : Word) (n : Nat) : (x.sshiftRight n).toInt = x.toInt / 2 ^ n := by
  rw [BitVec.toInt_sshiftRight, Int.shiftRight_eq_div_pow]
  push_cast
  rfl

/-- A bit of an arithmetic right shift: above bit 47 there are copies of the sign bit. -/
theorem getLsbD_sshiftRight_word (x : Word) (n : Nat) {i : Nat} (hi : i < 48) :
    (x.sshiftRight n).getLsbD i = x.getLsbD (min (n + i) 47) := by
  rw [BitVec.getLsbD_sshiftRight, BitVec.msb_eq_getLsbD_last, decide_eq_false (by omega), Bool.not_false,
    Bool.true_and]
  split
  · rw [min_eq_left (by omega)]
  · rw [min_eq_right (by omega)]

/-- R82's test read the other way: every bit above the window is the sign bit. -/
theorem overflows_eq_false_iff (x : Word) (L : Nat) :
    overflows x L = false ↔ ∀ i, L + 4 ≤ i → i ≤ 46 → x.getLsbD i = x.getLsbD 47 := by
  rw [← Bool.not_eq_true, overflows_iff]
  simp only [not_exists, not_and, ne_eq, not_not]

theorem getLsbD_above_window {x : Word} {L i : Nat} (h : overflows x L = false) (hi : L + 4 ≤ i) :
    x.getLsbD (min i 47) = x.getLsbD 47 := by
  rcases Nat.lt_or_ge i 47 with hlt | hge
  · rw [min_eq_left hlt.le]
    exact (overflows_eq_false_iff x L).mp h i hi (by omega)
  · rw [min_eq_right hge]

/-- A word is in the domain when nothing but copies of its sign bit lies above the window. -/
theorem overflows_eq_false_iff_sshiftRight (x : Word) (L : Nat) :
    overflows x L = false ↔ x.sshiftRight (L + 4) = x.sshiftRight 47 := by
  constructor
  · intro h
    apply BitVec.eq_of_getLsbD_eq
    intro i hi
    rw [getLsbD_sshiftRight_word x _ hi, getLsbD_sshiftRight_word x _ hi, getLsbD_above_window h (by omega),
      min_eq_right (by omega)]
  · intro h
    rw [overflows_eq_false_iff]
    intro i hlo hhi
    have hbit := congrArg (BitVec.getLsbD · (i - (L + 4))) h
    rwa [getLsbD_sshiftRight_word x _ (by omega), getLsbD_sshiftRight_word x _ (by omega),
      min_eq_left (by omega), min_eq_right (by omega), Nat.add_sub_cancel' hlo] at hbit

/-- R82's derived reading, for every window position: the domain is an interval. -/
theorem overflows_eq_false_iff_interval (x : Word) (L : Nat) :
    overflows x L = false ↔ -16 * 2 ^ L ≤ x.toInt ∧ x.toInt < 16 * 2 ^ L := by
  obtain ⟨hx_lo, hx_hi⟩ := toInt_range x
  have hpow : (2 : Int) ^ (L + 4) = 16 * 2 ^ L := by ring
  have hpos : (0 : Int) < 16 * 2 ^ L := by positivity
  have hlo := Int.le_ediv_iff_mul_le (a := -1) (b := x.toInt) hpos
  have hhi := Int.ediv_lt_iff_lt_mul (a := x.toInt) (b := 1) hpos
  have hsign := Int.ediv_nonneg_iff_of_pos (a := x.toInt) hpos
  rw [overflows_eq_false_iff_sshiftRight, ← BitVec.toInt_inj, toInt_sshiftRight_eq_ediv,
    toInt_sshiftRight_eq_ediv, hpow]
  omega

theorem getLsbD_selector_window (x : Word) (L : Nat) {i : Nat} (hi : i < 4) :
    (selector x L).getLsbD i = x.getLsbD (L + i) := by
  refine BitVec.getLsbD_append.trans ?_
  rw [if_pos hi, BitVec.getLsbD_extractLsb', decide_eq_true hi, Bool.true_and]

theorem msb_selector (x : Word) (L : Nat) : (selector x L).msb = x.getLsbD 47 := by
  rw [BitVec.msb_eq_getLsbD_last]
  exact BitVec.getLsbD_append.trans (BitVec.getLsbD_extractLsb' ..)

/-- In the domain the selector holds all of `x` above the window's low end: sign-extended, it is the shifted word. -/
theorem signExtend_selector {x : Word} {L : Nat} (hL : L ≤ 43) (h : overflows x L = false) :
    (selector x L).signExtend 48 = x.sshiftRight L := by
  apply BitVec.eq_of_getLsbD_eq
  intro i hi
  rw [getLsbD_sshiftRight_word x _ hi, BitVec.getLsbD_signExtend, decide_eq_true hi, Bool.true_and]
  rcases Nat.lt_or_ge i 4 with hwindow | habove
  · rw [if_pos (by omega), getLsbD_selector_window x L hwindow, min_eq_left (by omega)]
  · rw [getLsbD_above_window h (by omega), ← msb_selector x L, BitVec.msb_eq_getLsbD_last]
    split
    · rw [show i = 4 by omega]
    · rfl

/-- The other half of R82's derived reading: the signed index is the floor of `x / 2^L`. -/
theorem toInt_selector {x : Word} {L : Nat} (hL : L ≤ 43) (h : overflows x L = false) :
    (selector x L).toInt = Int.fdiv x.toInt (2 ^ L) := by
  rw [Int.fdiv_eq_ediv_of_nonneg _ (by positivity), ← toInt_sshiftRight_eq_ediv, ← signExtend_selector hL h]
  exact (BitVec.toInt_signExtend_of_le (by decide)).symm

/-- Settles O13: shifted past the window a word in the domain is its sign, and shifted to the window it is the
selector; a shift is a floored division. -/
theorem activationDomain : Obligations.ActivationDomain :=
  fun x L hL => ⟨overflows_eq_false_iff_interval x L, toInt_selector hL⟩

/-! ### The approximation, case by case -/

theorem approx_of_overflows {x : Word} {L : Nat} (h : overflows x L = true) (t : Table) (neg pos : Word) :
    approx x L t neg pos = if x.getLsbD 47 then neg else pos := by
  rw [approx, if_pos h]

theorem approx_of_not_overflows {x : Word} {L : Nat} (h : overflows x L = false) (t : Table) (neg pos : Word) :
    approx x L t neg pos = segmentMap (lutRead t (selector x L).toInt) x := by
  rw [approx, h]
  rfl

/-- The sign bit is set exactly on the negative words. -/
theorem signBit_eq_decide (x : Word) : x.getLsbD 47 = decide (x.toInt < 0) := by
  rw [← BitVec.msb_eq_toInt, BitVec.msb_eq_getLsbD_last]

theorem overflows_of_not_interval {x : Word} {L : Nat} (h : ¬ (-16 * 2 ^ L ≤ x.toInt ∧ x.toInt < 16 * 2 ^ L)) :
    overflows x L = true := by
  rwa [← Bool.not_eq_false, overflows_eq_false_iff_interval]

theorem approx_of_ge {x : Word} {L : Nat} (h : 16 * 2 ^ L ≤ x.toInt) (t : Table) (neg pos : Word) :
    approx x L t neg pos = pos := by
  have hpos : (0 : Int) < 2 ^ L := by positivity
  rw [approx_of_overflows (overflows_of_not_interval (by omega)), signBit_eq_decide,
    decide_eq_false (by omega)]
  rfl

theorem approx_of_lt {x : Word} {L : Nat} (h : x.toInt < -16 * 2 ^ L) (t : Table) (neg pos : Word) :
    approx x L t neg pos = neg := by
  have hpos : (0 : Int) < 2 ^ L := by positivity
  rw [approx_of_overflows (overflows_of_not_interval (by omega)), signBit_eq_decide,
    decide_eq_true (by omega), if_pos rfl]

theorem approx_of_interval {x : Word} {L : Nat} (hL : L ≤ 43) (hlo : -16 * 2 ^ L ≤ x.toInt)
    (hhi : x.toInt < 16 * 2 ^ L) (t : Table) (neg pos : Word) :
    approx x L t neg pos = segmentMap (lutRead t (Int.fdiv x.toInt (2 ^ L))) x := by
  have h := (overflows_eq_false_iff_interval x L).mpr ⟨hlo, hhi⟩
  rw [approx_of_not_overflows h, toInt_selector hL h]

theorem exec_tanh_above {a : Word} {s : State} (h : 2 ^ 17 ≤ a.toInt) :
    exec (.tanh a) s = .next (answered s.rom.tanhSatPos s) :=
  exec_answers (approx_of_ge h _ _ _)

theorem exec_tanh_below {a : Word} {s : State} (h : a.toInt < -(2 ^ 17)) :
    exec (.tanh a) s = .next (answered s.rom.tanhSatNeg s) :=
  exec_answers (approx_of_lt h _ _ _)

theorem exec_tanh_inside {a : Word} {s : State} (hlo : -(2 ^ 17) ≤ a.toInt) (hhi : a.toInt < 2 ^ 17) :
    exec (.tanh a) s = .next (answered (segmentMap (lutRead s.rom.tanhLut (Int.fdiv a.toInt (2 ^ 13))) a) s) :=
  exec_answers (approx_of_interval (by decide) hlo hhi _ _ _)

/-- Settles O14: the three ranges are the approximation's three cases at the tanh window. -/
theorem tanhDomainEdges : Obligations.TanhDomainEdges :=
  fun _ _ => ⟨exec_tanh_above, exec_tanh_below, exec_tanh_inside⟩

theorem exec_sigmoid_above {a : Word} {s : State} (h : 2 ^ 18 ≤ a.toInt) :
    exec (.sigmoid a) s = .next (answered s.rom.sigSatHi s) :=
  exec_answers (approx_of_ge h _ _ _)

theorem exec_sigmoid_below {a : Word} {s : State} (h : a.toInt < -(2 ^ 18)) :
    exec (.sigmoid a) s = .next (answered s.rom.sigSatLo s) :=
  exec_answers (approx_of_lt h _ _ _)

theorem exec_sigmoid_inside {a : Word} {s : State} (hlo : -(2 ^ 18) ≤ a.toInt) (hhi : a.toInt < 2 ^ 18) :
    exec (.sigmoid a) s = .next (answered (segmentMap (lutRead s.rom.sigLut (Int.fdiv a.toInt (2 ^ 14))) a) s) :=
  exec_answers (approx_of_interval (by decide) hlo hhi _ _ _)

/-- Settles O15: the three ranges are the approximation's three cases at the sigmoid window. -/
theorem sigmoidDomainEdges : Obligations.SigmoidDomainEdges :=
  fun _ _ => ⟨exec_sigmoid_above, exec_sigmoid_below, exec_sigmoid_inside⟩

/-- At zero the product vanishes and the intercept alone is left (R89). -/
theorem segmentMap_zero_right (e : LutEntry) : segmentMap e 0 = conv e.icpt := by
  rw [segmentMap, fxMul_zero_right, fxAdd_zero_left]

theorem exec_tanh_zero (s : State) :
    exec (.tanh 0) s = .next (answered (conv (lutRead s.rom.tanhLut 0).icpt) s) := by
  rw [← segmentMap_zero_right]
  exact exec_tanh_inside (by decide) (by decide)

theorem exec_sigmoid_zero (s : State) :
    exec (.sigmoid 0) s = .next (answered (conv (lutRead s.rom.sigLut 0).icpt) s) := by
  rw [← segmentMap_zero_right]
  exact exec_sigmoid_inside (by decide) (by decide)

/-- Settles O16: zero lies in the domain of both, at index 0, where only the intercept counts. -/
theorem activationAtZeroIsIntercept : Obligations.ActivationAtZeroIsIntercept :=
  fun s => ⟨exec_tanh_zero s, exec_sigmoid_zero s⟩

/-- Settles O11: the bits of `a` decide which branch answers, and each corner case is zero or lies in a range of its
signed reading. -/
theorem tanhRespondsSegmentOrSaturation : Obligations.TanhRespondsSegmentOrSaturation := by
  intro a b c s
  refine ⟨decode_code .tanh a b c, fun hbit => ?overflow, fun hbits e he => ?segment,
    exec_tanh_inside (by decide) (by decide), exec_tanh_above (by decide), exec_tanh_below (by decide),
    exec_tanh_above (by decide), exec_tanh_zero s, exec_tanh_above (by decide), rfl⟩
  case overflow => exact exec_answers (approx_of_overflows ((overflows_iff a tanhSelLo).mpr hbit) _ _ _)
  case segment =>
    subst he
    exact exec_answers (approx_of_not_overflows ((overflows_eq_false_iff a tanhSelLo).mpr hbits) _ _ _)

/-- Settles O12: the bits of `a` decide which branch answers, and each corner case lies in a range of its signed
reading. -/
theorem sigmoidRespondsSegmentOrSaturation : Obligations.SigmoidRespondsSegmentOrSaturation := by
  intro a b c s
  refine ⟨decode_code .sigmoid a b c, fun hbit => ?overflow, fun hbits e he => ?segment,
    exec_sigmoid_inside (by decide) (by decide), exec_sigmoid_above (by decide), exec_sigmoid_above (by decide),
    rfl, rfl⟩
  case overflow => exact exec_answers (approx_of_overflows ((overflows_iff a sigSelLo).mpr hbit) _ _ _)
  case segment =>
    subst he
    exact exec_answers (approx_of_not_overflows ((overflows_eq_false_iff a sigSelLo).mpr hbits) _ _ _)

/-! ### Bounds -/

/-- The bounds of the in-domain results are those of all: outside the domain the result is one of the two constants. -/
theorem approx_bounded {x neg pos : Word} {L : Nat} {t : Table} (hle : neg.toInt ≤ pos.toInt)
    (hdom : overflows x L = false →
      neg.toInt ≤ (approx x L t neg pos).toInt ∧ (approx x L t neg pos).toInt ≤ pos.toInt) :
    neg.toInt ≤ (approx x L t neg pos).toInt ∧ (approx x L t neg pos).toInt ≤ pos.toInt := by
  cases h : overflows x L with
  | false => exact hdom h
  | true =>
    rw [approx_of_overflows h]
    split
    · exact ⟨le_rfl, hle⟩
    · exact ⟨hle, le_rfl⟩

/-- Settles O18: the port shows the approximation, which keeps the bounds of its in-domain results. -/
theorem activationBoundedUnderTableAssumption : Obligations.ActivationBoundedUnderTableAssumption := by
  intro x s
  exact ⟨fun hdom hle => ⟨_, exec_eq_answered _ s, approx_bounded hle (hdom x)⟩,
    fun hdom hle => ⟨_, exec_eq_answered _ s, approx_bounded hle (hdom x)⟩⟩

/-- A word in the domain of a window up to 14 is within ±4.0 (R84). -/
theorem domain_range {x : Word} {L : Nat} (hL : L ≤ 14) (h : overflows x L = false) :
    -2 ^ 18 ≤ x.toInt ∧ x.toInt ≤ 2 ^ 18 - 1 := by
  obtain ⟨hlo, hhi⟩ := (overflows_eq_false_iff_interval x L).mp h
  have hpow : (2 : Int) ^ L ≤ 2 ^ 14 := pow_le_pow_right₀ (by decide) hL
  omega

theorem conv_range (t : TableWord) : -2 ^ 20 ≤ (conv t).toInt ∧ (conv t).toInt ≤ 2 ^ 20 - 1 := by
  obtain ⟨hlo, hhi⟩ := tableWord_range t
  rw [toInt_conv]
  omega

/-- The range of the exact product of a converted coefficient and a word in the domain: ±64.0 in real units, and the
lower end is not reached, which keeps the segment strictly below 80.0 in size. -/
theorem segment_product_range {c x : Int} (hc_lo : -2 ^ 20 ≤ c) (hc_hi : c ≤ 2 ^ 20 - 1)
    (hx_lo : -2 ^ 18 ≤ x) (hx_hi : x ≤ 2 ^ 18 - 1) : -2 ^ 38 + 2 ^ 18 ≤ c * x ∧ c * x ≤ 2 ^ 38 := by
  have hscaled : -(2 ^ 20 * (2 ^ 20 - 1)) ≤ c * (4 * x) := neg_mul_pred_le_mul hc_lo hc_hi (by omega) (by omega)
  have hupper : 0 ≤ (2 ^ 20 - c) * (2 ^ 18 + x) := mul_nonneg (by omega) (by omega)
  have hupper' : 0 ≤ (2 ^ 20 + c) * (2 ^ 18 - x) := mul_nonneg (by omega) (by omega)
  exact ⟨by linarith, by linarith⟩

/-- A product whose floor fits into 48 bits does not wrap. -/
theorem toInt_fxMul_of_range {a b : Word} (hlo : -2 ^ 63 ≤ a.toInt * b.toInt) (hhi : a.toInt * b.toInt < 2 ^ 63) :
    (fxMul a b).toInt = Int.fdiv (a.toInt * b.toInt) (2 ^ 16) := by
  rw [fxMul_eq_floor, Int.fdiv_eq_ediv_of_nonneg _ (by decide)]
  exact BitVec.toInt_ofInt_eq_self (by decide) (by omega) (by omega)

/-- A sum that fits into 48 bits does not wrap. -/
theorem toInt_fxAdd_of_range {a b : Word} (hlo : -2 ^ 47 ≤ a.toInt + b.toInt) (hhi : a.toInt + b.toInt < 2 ^ 47) :
    (fxAdd a b).toInt = a.toInt + b.toInt :=
  BitVec.toInt_ofInt_eq_self (by decide) hlo hhi

/-- In the domain neither step wraps, so only the floor of the product loses bits, and the result is below 80.0 in
size (R84). -/
theorem toInt_segmentMap {e : LutEntry} {x : Word} {L : Nat} (hL : L ≤ 14) (h : overflows x L = false) :
    (segmentMap e x).toInt = Int.fdiv ((conv e.coef).toInt * x.toInt) (2 ^ 16) + (conv e.icpt).toInt ∧
      (segmentMap e x).toInt.natAbs < 80 * 2 ^ 16 := by
  obtain ⟨hx_lo, hx_hi⟩ := domain_range hL h
  obtain ⟨hc_lo, hc_hi⟩ := conv_range e.coef
  obtain ⟨hi_lo, hi_hi⟩ := conv_range e.icpt
  obtain ⟨hp_lo, hp_hi⟩ := segment_product_range hc_lo hc_hi hx_lo hx_hi
  have hmul := toInt_fxMul_of_range (a := conv e.coef) (b := x) (by omega) (by omega)
  have hfloor := Int.fdiv_eq_ediv_of_nonneg ((conv e.coef).toInt * x.toInt) (b := 2 ^ 16) (by decide)
  have hadd := toInt_fxAdd_of_range (a := fxMul (conv e.coef) x) (b := conv e.icpt) (by omega) (by omega)
  rw [segmentMap, hadd, hmul]
  exact ⟨rfl, by omega⟩

/-- Settles O17: R83 gives the two converted table words as integers. -/
theorem segmentNeverWrapsInDomain : Obligations.SegmentNeverWrapsInDomain := by
  intro x L e hL h
  rw [← toInt_conv, ← toInt_conv]
  exact toInt_segmentMap hL h

end Sys2Proof.Machine

namespace Sys2Proof.Machine

/-! ### Node identifiers: fields of a packed word -/

/-- A field of at most 48 bits survives its zero extension (R51). -/
theorem extract_zext48 {n : Nat} (hn : n ≤ 48) (v : BitVec n) : (zext48 v).extractLsb' 0 n = v := by
  rw [zext48, ← BitVec.setWidth_eq_extractLsb' hn, BitVec.setWidth_setWidth_of_le v hn, BitVec.setWidth_eq]

/-- An operand that fits into its field is its low bits, zero-extended: nothing is truncated (R56). -/
theorem zext48_extract_of_lt {n : Nat} {a : Word} (h : a.toNat < 2 ^ n) : zext48 (a.extractLsb' 0 n) = a := by
  apply BitVec.eq_of_toNat_eq
  rw [zext48, BitVec.toNat_setWidth, BitVec.extractLsb'_toNat, Nat.shiftRight_zero, Nat.mod_eq_of_lt h,
    Nat.mod_eq_of_lt a.isLt]

/-- A zero-extended field keeps its field's range. -/
theorem toNat_zext48_le {n : Nat} (hn : n ≤ 48) (v : BitVec n) : (zext48 v).toNat ≤ 2 ^ n - 1 := by
  rw [zext48, BitVec.toNat_setWidth_of_le hn]
  exact Nat.le_sub_one_of_lt v.isLt

theorem tileId_makeId (a b c : Word) : tileId (makeId a b c) = tileArg a := by
  rw [tileId, makeId, extract_append_high _ _ _ _ (by decide), extract_append_high _ _ _ _ (by decide)]
  exact BitVec.extractLsb'_eq_self

theorem partitionId_makeId (a b c : Word) : partitionId (makeId a b c) = partArg b := by
  rw [partitionId, makeId, extract_append_high _ _ _ _ (by decide)]
  exact extract_append_low _ _

theorem localIndex_makeId (a b c : Word) : localIndex (makeId a b c) = localArg c :=
  extract_append_low _ _

/-- ID_MAKE sees no more of its operands than the three fields (R56). -/
theorem makeId_congr {a b c a' b' c' : Word} (ha : tileArg a = tileArg a') (hb : partArg b = partArg b')
    (hc : localArg c = localArg c') : makeId a b c = makeId a' b' c' := by
  rw [makeId, makeId, ha, hb, hc]

/-- The three fields lie side by side and cover the identifier (R23). -/
theorem append_identifier_fields (id : Word) : tileId id ++ partitionId id ++ localIndex id = id := by
  calc id.extractLsb' 32 16 ++ id.extractLsb' 8 24 ++ id.extractLsb' 0 8
    _ = id.extractLsb' 8 40 ++ id.extractLsb' 0 8 := by rw [extract_append_extract id 8 16 24]
    _ = id.extractLsb' 0 48 := extract_append_extract id 0 40 8
    _ = id := BitVec.extractLsb'_eq_self

theorem makeId_identifier_fields (id : Word) :
    makeId (zext48 (tileId id)) (zext48 (partitionId id)) (zext48 (localIndex id)) = id := by
  rw [makeId, tileArg, partArg, localArg, extract_zext48 (by decide), extract_zext48 (by decide),
    extract_zext48 (by decide), append_identifier_fields]

/-- Settles O29: each accessor finds the operand's low bits, which are all of an operand in range, and the fields of an
identifier make it up. -/
theorem identifierRoundTrip : Obligations.IdentifierRoundTrip := by
  intro m a b c id
  refine ⟨fun ha hb hc => ⟨?tile, ?partition, ?index⟩, makeId_identifier_fields id⟩
  case tile => exact (congrArg zext48 (tileId_makeId a b c)).trans (zext48_extract_of_lt ha)
  case partition => exact (congrArg zext48 (partitionId_makeId a b c)).trans (zext48_extract_of_lt hb)
  case index => exact (congrArg zext48 (localIndex_makeId a b c)).trans (zext48_extract_of_lt hc)

/-- Two instructions with one response word do the same in a state. -/
theorem exec_congr {i j : Instr} {s : State} (h : responseOf s.rom i = responseOf s.rom j) : exec i s = exec j s :=
  (exec_answers h).trans (exec_eq_answered j s).symm

/-- Settles O19: each truncation case agrees with its twin on the field read, and the example evaluates. -/
theorem idMakePacksTruncatedFields : Obligations.IdMakePacksTruncatedFields := by
  intro a b c s
  exact ⟨decode_code .idMake a b c, exec_answers rfl, exec_congr (makeId_congr (by decide) rfl rfl),
    exec_congr (makeId_congr rfl (by decide) rfl), exec_congr (makeId_congr rfl rfl (by decide)), exec_answers rfl⟩

/-- Settles O20: the response is the zero-extended field, in the range of its 16 bits. -/
theorem idTileRespondsTileField : Obligations.IdTileRespondsTileField :=
  fun a b c _ => ⟨decode_code .idTile a b c, exec_answers rfl, toNat_zext48_le (by decide) (tileId a), exec_answers rfl⟩

/-- Settles O21: the response is the zero-extended field, in the range of its 24 bits. -/
theorem idPartRespondsPartitionField : Obligations.IdPartRespondsPartitionField :=
  fun a b c _ =>
    ⟨decode_code .idPart a b c, exec_answers rfl, toNat_zext48_le (by decide) (partitionId a), exec_answers rfl⟩

/-- Settles O22: the response is the zero-extended field, in the range of its 8 bits. -/
theorem idLocalRespondsIndexField : Obligations.IdLocalRespondsIndexField :=
  fun a b c _ =>
    ⟨decode_code .idLocal a b c, exec_answers rfl, toNat_zext48_le (by decide) (localIndex a), exec_answers rfl⟩

/-! ### Node identifiers: equality and order -/

/-- A decided condition as a response word (R57). -/
theorem boolWord_decide (P : Prop) [Decidable P] : boolWord (decide P) = if P then 1 else 0 := by
  split
  · next h =>
    rw [decide_eq_true h]
    rfl
  · next h =>
    rw [decide_eq_false h]
    rfl

theorem boolWord_not_decide (P : Prop) [Decidable P] : boolWord (!decide P) = if ¬ P then 1 else 0 := by
  rw [← decide_not, boolWord_decide]

theorem boolWord_eq_one_iff (p : Bool) : boolWord p = 1 ↔ p = true := by
  cases p <;> decide

theorem responseOf_idEq (m : Rom) (p q : Word) :
    responseOf m (.idEq p q) = if p.toNat = q.toNat then 1 else 0 :=
  boolWord_decide _

theorem responseOf_idNe (m : Rom) (p q : Word) :
    responseOf m (.idNe p q) = if ¬ p.toNat = q.toNat then 1 else 0 :=
  boolWord_not_decide _

theorem responseOf_idLt (m : Rom) (p q : Word) :
    responseOf m (.idLt p q) = if p.toNat < q.toNat then 1 else 0 :=
  boolWord_decide _

theorem responseOf_idGt (m : Rom) (p q : Word) :
    responseOf m (.idGt p q) = if q.toNat < p.toNat then 1 else 0 :=
  boolWord_decide _

theorem responseOf_idLe (m : Rom) (p q : Word) :
    responseOf m (.idLe p q) = if ¬ q.toNat < p.toNat then 1 else 0 :=
  boolWord_not_decide _

theorem responseOf_idGe (m : Rom) (p q : Word) :
    responseOf m (.idGe p q) = if ¬ p.toNat < q.toNat then 1 else 0 :=
  boolWord_not_decide _

/-- An identifier's number in terms of its fields (R23). -/
theorem toNat_eq_identifier_fields (id : Word) :
    id.toNat = (tileId id).toNat * 2 ^ 32 + (partitionId id).toNat * 2 ^ 8 + (localIndex id).toNat := by
  rw [tileId, partitionId, localIndex, BitVec.extractLsb'_toNat, BitVec.extractLsb'_toNat, BitVec.extractLsb'_toNat,
    Nat.shiftRight_eq_div_pow, Nat.shiftRight_eq_div_pow, Nat.shiftRight_zero]
  omega

/-- The unsigned order is lexicographic on the fields, since a field's bits weigh more than all below it (R104). -/
theorem toNat_lt_iff_lexicographic (p q : Word) :
    p.toNat < q.toNat ↔
      (tileId p).toNat < (tileId q).toNat ∨
      ((tileId p).toNat = (tileId q).toNat ∧
        ((partitionId p).toNat < (partitionId q).toNat ∨
          ((partitionId p).toNat = (partitionId q).toNat ∧ (localIndex p).toNat < (localIndex q).toNat))) := by
  have hp := toNat_eq_identifier_fields p
  have hq := toNat_eq_identifier_fields q
  have hpart_p := (partitionId p).isLt
  have hpart_q := (partitionId q).isLt
  have hlocal_p := (localIndex p).isLt
  have hlocal_q := (localIndex q).isLt
  omega

/-- Settles O31: the response 1 is the unsigned less-than, which compares field by field. -/
theorem identifierOrderIsLexicographic : Obligations.IdentifierOrderIsLexicographic := by
  intro m p q
  calc responseOf m (.idLt p q) = 1
    _ ↔ precedes p q = true := boolWord_eq_one_iff _
    _ ↔ p.toNat < q.toNat := decide_eq_true_iff
    _ ↔ _ := toNat_lt_iff_lexicographic p q

/-- Settles O30, by the trichotomy of the two numbers. -/
theorem identifierOrderTrichotomy : Obligations.IdentifierOrderTrichotomy := by
  intro m p q
  rw [responseOf_idLt, responseOf_idEq, responseOf_idGt]
  rcases lt_trichotomy p.toNat q.toNat with h | h | h
  · exact .inl ⟨if_pos h, if_neg h.ne, if_neg h.not_gt⟩
  · exact .inr (.inl ⟨if_neg h.not_lt, if_pos h, if_neg h.not_gt⟩)
  · exact .inr (.inr ⟨if_neg h.not_gt, if_neg h.ne', if_pos h⟩)

theorem toNat_ne_of_localIndex_ne {p q : Word} (h : localIndex p ≠ localIndex q) : p.toNat ≠ q.toNat :=
  fun heq => h (congrArg localIndex (BitVec.eq_of_toNat_eq heq))

/-- Settles O23: a word equals itself, and words whose local indexes differ are different. -/
theorem idEqRespondsEquality : Obligations.IdEqRespondsEquality :=
  fun a b c _ => ⟨decode_code .idEq a b c, exec_answers (responseOf_idEq _ a b),
    exec_answers ((responseOf_idEq _ a a).trans (if_pos rfl)),
    fun h => exec_answers ((responseOf_idEq _ a b).trans (if_neg (toNat_ne_of_localIndex_ne h))), exec_answers rfl⟩

/-- Settles O24: a word is not unequal to itself, and the example evaluates. -/
theorem idNeRespondsInequality : Obligations.IdNeRespondsInequality :=
  fun a b c _ => ⟨decode_code .idNe a b c, exec_answers (responseOf_idNe _ a b),
    exec_answers ((responseOf_idNe _ a a).trans (if_neg (not_not_intro rfl))), exec_answers rfl⟩

/-- Settles O25: no number is below itself, and the sign-bit case and the example evaluate. -/
theorem idLtRespondsUnsignedLess : Obligations.IdLtRespondsUnsignedLess :=
  fun a b c _ => ⟨decode_code .idLt a b c, exec_answers (responseOf_idLt _ a b),
    exec_answers ((responseOf_idLt _ a a).trans (if_neg (lt_irrefl _))), exec_answers rfl, exec_answers rfl⟩

/-- Settles O26: no number is above itself, and the example evaluates. -/
theorem idGtRespondsUnsignedGreater : Obligations.IdGtRespondsUnsignedGreater :=
  fun a b c _ => ⟨decode_code .idGt a b c, exec_answers (responseOf_idGt _ a b),
    exec_answers ((responseOf_idGt _ a a).trans (if_neg (lt_irrefl _))), exec_answers rfl⟩

/-- Settles O27: no number is above itself, so the same word answers 1, and the example evaluates. -/
theorem idLeRespondsUnsignedLessOrEqual : Obligations.IdLeRespondsUnsignedLessOrEqual :=
  fun a b c _ => ⟨decode_code .idLe a b c, exec_answers (responseOf_idLe _ a b),
    exec_answers ((responseOf_idLe _ a a).trans (if_pos (lt_irrefl _))), exec_answers rfl⟩

/-- Settles O28: no number is below itself, so the same word answers 1, and the example evaluates. -/
theorem idGeRespondsUnsignedGreaterOrEqual : Obligations.IdGeRespondsUnsignedGreaterOrEqual :=
  fun a b c _ => ⟨decode_code .idGe a b c, exec_answers (responseOf_idGe _ a b),
    exec_answers ((responseOf_idGe _ a a).trans (if_pos (lt_irrefl _))), exec_answers rfl⟩

end Sys2Proof.Machine

namespace Sys2Proof.Machine

/-! ### Refusals and completion -/

/-- At the unit's turn a head request that does not decode is taken from the queue and marked, with no response
(R122, R138). -/
theorem step_refuse {s : State} {q : Request} {rest : List Request} {e : DecodeError} (hturn : nextTurn s = .unit)
    (hhead : s.inflight = q :: rest) (hdec : decode q = .error e) :
    step s = .next (markRefused (dequeue (endTurn s))) := by
  simp [step, hturn, unitMove, hhead, hdec]

/-- Of the transitions one sets the mark and none clears it, the reset included (R122). -/
theorem step_keeps_refused {s t : State} (hs : s.refused = true) (h : step s = .next t) : t.refused = true := by
  cases transition_of_step h with
  | issue => exact hs
  | reset => exact hs
  | idle => exact hs
  | answer => exact hs
  | refuse => exact markRefused_refused _

/-- Settles O48: a reserved op does not decode, so the step is a refusal, which leaves the port and the responses;
and every step keeps a set mark, so every run does. -/
theorem refusalMarkIsSticky : Obligations.RefusalMarkIsSticky := by
  refine ⟨?mark, ?sticky⟩
  case mark =>
    intro s q rest hturn hhead hop
    have hs := step_refuse hturn hhead ((decode_refuses_iff q).mpr hop)
    exact ⟨_, hs, rfl, rfl, rfl, rfl⟩
  case sticky => exact run_keeps fun _ _ => step_keeps_refused

/-- No run stops at a fault or a refusal of the model, since no step does (logs 1, 5 and 14). -/
theorem run_next (n : Nat) : ∀ s : State, ∃ t, Sys2Proof.core.run n s = .next t := by
  induction n with
  | zero => exact fun s => ⟨s, run_zero s⟩
  | succ n ih =>
    intro s
    obtain ⟨u, hu⟩ := step_next s
    rw [run_succ n hu]
    exact ih u

/-- Settles O49: every instruction answers its response word (R120), and every run goes on. -/
theorem noOperationEverFails : Obligations.NoOperationEverFails :=
  ⟨fun i s => ⟨responseOf s.rom i, exec_eq_answered i s⟩, run_next⟩

end Sys2Proof.Machine

namespace Sys2Proof.Machine

/-! ### One step, by whose turn it is -/

theorem step_issue {s : State} {q : Request} (hturn : nextTurn s = .issue q) :
    step s = .next (issue q (endTurn s)) := by
  simp [step, hturn]

theorem step_reset {s : State} (hturn : nextTurn s = .reset) : step s = .next (unitReset (endTurn s)) := by
  simp [step, hturn]

theorem step_idle {s : State} (hturn : nextTurn s = .unit) (hempty : s.inflight = []) :
    step s = .next (endTurn s) := by
  simp [step, hturn, unitMove, hempty]

/-- The state in which the unit runs a request, written out: the head and the turn are taken, nothing else. -/
theorem dequeue_endTurn {s : State} {q : Request} {rest : List Request} (hhead : s.inflight = q :: rest) :
    dequeue (endTurn s) = { s with inflight := rest, schedule := s.schedule.tail } := by
  simp [dequeue, endTurn, hhead]

/-- Settles O43: the step answers the instruction's response at the state without the head, and so does the
instruction. -/
theorem stepRunsDecodedRequest : Obligations.StepRunsDecodedRequest := by
  intro s q rest i hturn hhead hdec
  rw [← dequeue_endTurn hhead, exec_eq_respond]
  exact step_answer hturn hhead hdec

theorem decode_of_decodeTableWord {n w : Nat} {i : Instr} (h : decodeTableWord n w = some i) :
    decode (tableRequest n w) = .ok i := by
  cases hd : decode (tableRequest n w) with
  | ok j => simpa [decodeTableWord, hd, Except.toOption] using h
  | error e => simp [decodeTableWord, hd, Except.toOption] at h

/-- Settles O44: what placing adds, the head and the unit's turn, the step takes away again. -/
theorem placedWordRunsNext : Obligations.PlacedWordRunsNext := by
  intro s w i h
  exact stepRunsDecodedRequest (s.withFetchWord 152 w) _ s.inflight i rfl rfl (decode_of_decodeTableWord h)

/-- Settles O45, turn by turn; at the unit's turn R54's list says whether the head decodes. -/
theorem stepIsOneOfTheTransitions : Obligations.StepIsOneOfTheTransitions := by
  intro s
  refine ⟨fun q => step_issue, ?refused, ?answered, ?reset⟩
  case refused =>
    intro q rest hturn hhead hop
    rw [step_refuse hturn hhead ((decode_refuses_iff q).mpr hop), dequeue_endTurn hhead]
    rfl
  case answered =>
    intro q rest hturn hhead hop
    obtain ⟨i, hdec⟩ := decode_ok_of_assigned hop
    refine ⟨responseOf s.rom i, answer_of_decode_ok s.rom hdec, ?_⟩
    rw [step_answer hturn hhead hdec, dequeue_endTurn hhead]
    rfl
  case reset =>
    intro hturn
    exact ⟨_, step_reset hturn, rfl, rfl, rfl, rfl, rfl⟩

/-- Settles O46: the unit's move is not enabled, and the turn ends. -/
theorem idleTurnChangesNothing : Obligations.IdleTurnChangesNothing :=
  fun _ => step_idle

/-- Settles O47: these are what the reset leaves in each field, and an issue to the emptied queue is all it holds. -/
theorem resetEventDiscardsInflight : Obligations.ResetEventDiscardsInflight := by
  intro s hturn
  exact ⟨_, step_reset hturn, rfl, rfl, rfl, rfl, rfl, rfl, fun _ hissue => ⟨_, step_issue hissue, rfl⟩⟩

/-! ### The requests still to be taken -/

/-- The requests in flight and those the host will still issue, in issue order. -/
def pending (s : State) : List Request := s.inflight ++ issued s.schedule

/-- No refusal is marked and none is to come: every pending request has an assigned op (R54, R122). -/
def RefusalFree (s : State) : Prop := s.refused = false ∧ ∀ q ∈ pending s, reservedOp q.op = false

theorem pending_issue {s : State} {q : Request} (hturn : nextTurn s = .issue q) :
    pending (issue q (endTurn s)) = pending s := by
  simp [pending, issued_of_issue_turn hturn]

theorem pending_endTurn {s : State} (hturn : nextTurn s = .unit) : pending (endTurn s) = pending s := by
  simp [pending, issued_of_unit_turn hturn]

/-- The unit's move takes the first of the pending requests. -/
theorem pending_eq_cons {s : State} {q : Request} {rest : List Request} (hturn : nextTurn s = .unit)
    (hhead : s.inflight = q :: rest) : pending s = q :: pending (dequeue (endTurn s)) := by
  simp [pending, hhead, issued_of_unit_turn hturn]

/-- A reset takes requests away and adds none. -/
theorem pending_unitReset_subset (s : State) : pending (unitReset (endTurn s)) ⊆ pending s :=
  List.subset_append_of_subset_right _ ((List.tail_sublist s.schedule).filterMap issuedBy).subset

theorem refusalFree_unitReset {s : State} (hs : RefusalFree s) : RefusalFree (unitReset (endTurn s)) := by
  obtain ⟨hmark, hops⟩ := hs
  exact ⟨hmark, fun q hq => hops q (pending_unitReset_subset s hq)⟩

theorem reservedOp_of_decode_error {q : Request} {e : DecodeError} (h : decode q = .error e) :
    reservedOp q.op = true :=
  (ofCode_eq_none_iff q.op).mp ((decode_error_iff q e).mp h).1

/-- But for a reset, which may discard a reserved op unseen, no step creates or averts a refusal: what leaves the pending
requests has an assigned op, or sets the mark. -/
theorem refusalFree_iff_of_step {s t : State} (hreset : nextTurn s ≠ .reset) (h : step s = .next t) :
    RefusalFree t ↔ RefusalFree s := by
  cases transition_of_step h with
  | issue q hturn => simp [RefusalFree, pending_issue hturn]
  | reset hturn => exact absurd hturn hreset
  | idle hturn _ => simp [RefusalFree, pending_endTurn hturn]
  | answer q rest i hturn hhead hdec =>
    have hop : reservedOp q.op = false := (decode_ok_iff_assigned q).mp ⟨i, hdec⟩
    have hrespond (v : Word) (u : State) : pending (respond v u) = pending u := rfl
    simp [RefusalFree, pending_eq_cons hturn hhead, hrespond, hop]
  | refuse q rest e hturn hhead hdec =>
    have hop : reservedOp q.op = true := reservedOp_of_decode_error hdec
    simp [RefusalFree, pending_eq_cons hturn hhead, hop]

/-- A schedule keeps the host's duty when every request it issues has an assigned op. -/
theorem scheduleWellFormed_iff (ts : List Turn) :
    scheduleWellFormed ts = true ↔ ∀ q ∈ issued ts, reservedOp q.op = false := by
  induction ts with
  | nil => simp [scheduleWellFormed, issued]
  | cons turn later ih =>
    simp only [scheduleWellFormed, issued] at ih
    cases turn <;> simp [scheduleWellFormed, issued, Turn.wellFormed, Request.wellFormed, issuedBy, ih]

theorem hostObeys_iff (s : State) : s.hostObeys = true ↔ ∀ q ∈ pending s, reservedOp q.op = false := by
  simp only [State.hostObeys, Bool.and_eq_true, scheduleWellFormed_iff, List.all_eq_true, Request.wellFormed,
    Bool.not_eq_true', pending, List.forall_mem_append]

theorem refusalFree_iff (s : State) : RefusalFree s ↔ s.hostObeys = true ∧ s.refused = false := by
  rw [RefusalFree, hostObeys_iff, and_comm]

/-- Settles O57: a reset only discards requests, and every other step keeps the absence of refusals. -/
theorem obedientHostIsNeverRefused : Obligations.ObedientHostIsNeverRefused := by
  intro s t hobeys hmark h
  have hs : RefusalFree s := (refusalFree_iff s).mpr ⟨hobeys, hmark⟩
  rw [← refusalFree_iff]
  by_cases hturn : nextTurn s = .reset
  · cases (step_reset hturn).symm.trans h
    exact refusalFree_unitReset hs
  · exact (refusalFree_iff_of_step hturn h).mpr hs

/-! ### Runs to the end of the schedule -/

/-- A bound on the steps to an empty queue and schedule: an issue uses up its turn and leaves a request to take. -/
def stepsLeft (s : State) : Nat := s.inflight.length + 2 * s.schedule.length

theorem stepsLeft_issue {s : State} {q : Request} (hturn : nextTurn s = .issue q) :
    stepsLeft (issue q (endTurn s)) ≤ stepsLeft s - 1 := by
  have hne : s.schedule ≠ [] := fun hnil => by simp [nextTurn, hnil] at hturn
  have hpos := List.length_pos_iff.mpr hne
  simp only [stepsLeft, issue_inflight, issue_schedule, endTurn_inflight, endTurn_schedule, List.length_append,
    List.length_singleton, List.length_tail]
  omega

theorem stepsLeft_dequeue {s : State} {q : Request} {rest : List Request} (hhead : s.inflight = q :: rest) :
    stepsLeft (dequeue (endTurn s)) ≤ stepsLeft s - 1 := by
  rw [dequeue_endTurn hhead]
  simp only [stepsLeft, hhead, List.length_cons, List.length_tail]
  omega

/-- A step that leaves the queue empty has used up its turn, and all that was in flight. -/
theorem stepsLeft_of_empty_queue {s t : State} (hqueue : t.inflight = []) (hturns : t.schedule = s.schedule.tail) :
    stepsLeft t ≤ stepsLeft s - 1 := by
  simp only [stepsLeft, hqueue, hturns, List.length_nil, List.length_tail]
  omega

/-- Every step, a reset included, brings the end nearer. -/
theorem stepsLeft_of_step {s t : State} (h : step s = .next t) : stepsLeft t ≤ stepsLeft s - 1 := by
  cases transition_of_step h with
  | issue q hturn => exact stepsLeft_issue hturn
  | reset => exact stepsLeft_of_empty_queue rfl rfl
  | idle _ hempty => exact stepsLeft_of_empty_queue hempty rfl
  | answer q rest i _ hhead => exact stepsLeft_dequeue hhead
  | refuse q rest e _ hhead => exact stepsLeft_dequeue hhead

theorem run_stepsLeft (n : Nat) :
    ∀ s t : State, Sys2Proof.core.run n s = .next t → stepsLeft t ≤ stepsLeft s - n := by
  induction n with
  | zero =>
    intro s t h
    cases h
    exact le_rfl
  | succ n ih =>
    intro s t h
    obtain ⟨u, hu⟩ := step_next s
    rw [run_succ n hu] at h
    have hstep := stepsLeft_of_step hu
    have hrun := ih u t h
    omega

/-- After as many steps as the bound says, queue and schedule are empty. -/
theorem run_drains {s t : State} (h : Sys2Proof.core.run (stepsLeft s) s = .next t) :
    t.inflight = [] ∧ t.schedule = [] := by
  have hle := run_stepsLeft _ s t h
  simp only [stepsLeft] at hle
  exact ⟨List.length_eq_zero_iff.mp (by omega), List.length_eq_zero_iff.mp (by omega)⟩

/-- What every step of a reset-free schedule keeps, a run of it keeps. -/
theorem run_keeps_of_resetFree {P : State → Prop}
    (hstep : ∀ u v, resetFree u.schedule = true → P u → step u = .next v → P v) {n : Nat} {s t : State}
    (hfree : resetFree s.schedule = true) (hs : P s) (h : Sys2Proof.core.run n s = .next t) : P t := by
  have hkeep : ∀ u v : State, resetFree u.schedule = true ∧ P u → step u = .next v →
      resetFree v.schedule = true ∧ P v := by
    rintro u v ⟨hu, hP⟩ huv
    exact ⟨(streamOfResponsesIsConserved u v hu huv).2, hstep u v hu hP huv⟩
  exact (run_keeps hkeep n s t ⟨hfree, hs⟩ h).2

theorem run_owed {n : Nat} {s t : State} (hfree : resetFree s.schedule = true)
    (h : Sys2Proof.core.run n s = .next t) : owed t = owed s :=
  run_keeps_of_resetFree (P := fun u => owed u = owed s) (fun _ _ hu hP huv => (step_owed hu huv).trans hP)
    hfree rfl h

theorem refusalFree_iff_of_run {n : Nat} {s t : State} (hfree : resetFree s.schedule = true)
    (h : Sys2Proof.core.run n s = .next t) : RefusalFree t ↔ RefusalFree s :=
  run_keeps_of_resetFree (P := fun u => RefusalFree u ↔ RefusalFree s)
    (fun _ _ hu hP huv => (refusalFree_iff_of_step (nextTurn_ne_reset hu) huv).trans hP) hfree Iff.rfl h

/-- With queue and schedule empty nothing is owed but what was given. -/
theorem owed_of_drained {t : State} (hqueue : t.inflight = []) (hturns : t.schedule = []) : owed t = t.responses := by
  simp [owed, answers, issued, hqueue, hturns]

theorem refusalFree_of_drained {t : State} (hqueue : t.inflight = []) (hturns : t.schedule = []) :
    RefusalFree t ↔ t.refused = false := by
  simp [RefusalFree, pending, issued, hqueue, hturns]

/-- Settles O55: the run drains queue and schedule and keeps the stream, of which only the responses given are left. -/
theorem resetFreeRunAnswersEveryRequest : Obligations.ResetFreeRunAnswersEveryRequest := by
  intro s hfree
  obtain ⟨t, ht⟩ := run_next (stepsLeft s) s
  obtain ⟨hqueue, hturns⟩ := run_drains ht
  exact ⟨t, ht, hqueue, hturns, (owed_of_drained hqueue hturns).symm.trans (run_owed hfree ht)⟩

/-- Settles O56: at the end only the mark is left of a refusal's signs, and the run neither creates nor averts one. -/
theorem cleanEndIffNoReservedOp : Obligations.CleanEndIffNoReservedOp := by
  intro s hfree
  obtain ⟨t, ht⟩ := run_next (stepsLeft s) s
  obtain ⟨hqueue, hturns⟩ := run_drains ht
  have hover : t.over = true := by simp [State.over, hqueue]
  refine ⟨t, ht, hover, ?_⟩
  calc t.endedCleanly = true
    _ ↔ t.refused = false := by simp [State.endedCleanly, hover]
    _ ↔ RefusalFree t := (refusalFree_of_drained hqueue hturns).symm
    _ ↔ RefusalFree s := refusalFree_iff_of_run hfree ht

/-! ### One response per assigned request -/

/-- A queue of assigned requests has an answer for each, in its order. -/
theorem map_some_answers (m : Rom) {qs : List Request} (hops : ∀ q ∈ qs, reservedOp q.op = false) :
    (answers m qs).map some = qs.map (answer m) := by
  induction qs with
  | nil => rfl
  | cons q rest ih =>
    obtain ⟨hop, hrest⟩ := List.forall_mem_cons.mp hops
    obtain ⟨i, hdec⟩ := decode_ok_of_assigned hop
    have hcons : answers m (q :: rest) = responseOf m i :: answers m rest :=
      List.filterMap_cons_some (answer_of_decode_ok m hdec)
    rw [hcons, List.map_cons, List.map_cons, ih hrest, answer_of_decode_ok m hdec]

theorem length_answers (m : Rom) {qs : List Request} (hops : ∀ q ∈ qs, reservedOp q.op = false) :
    (answers m qs).length = qs.length := by
  simpa using congrArg List.length (map_some_answers m hops)

/-- The k-th answer is that of the k-th request. -/
theorem answers_getElem? (m : Rom) {qs : List Request} (hops : ∀ q ∈ qs, reservedOp q.op = false) {k : Nat}
    {q : Request} (hq : qs[k]? = some q) : answer m q = (answers m qs)[k]? := by
  have hk := congrArg (fun l : List (Option Word) => l[k]?) (map_some_answers m hops)
  simp only [List.getElem?_map, hq, Option.map_some] at hk
  obtain ⟨v, hv, hanswer⟩ := Option.map_eq_some_iff.mp hk
  rw [hv, hanswer]

/-- Settles O53: with no turn scheduled nothing more is issued, so the run's responses are the answers to the queue. -/
theorem responsesInIssueOrder : Obligations.ResponsesInIssueOrder := by
  intro s hturns hops
  obtain ⟨t, ht, hqueue, -, hresp⟩ := resetFreeRunAnswersEveryRequest s (by rw [hturns]; rfl)
  have hpending : s.inflight ++ issued s.schedule = s.inflight := by
    rw [hturns]
    exact List.append_nil _
  rw [hpending] at hresp
  rw [hturns] at ht
  exact ⟨t, answers s.rom s.inflight, ht, hqueue, length_answers s.rom hops, hresp,
    fun _ _ => answers_getElem? s.rom hops⟩

end Sys2Proof.Machine
